-- ==== Sys2Proof/Word.lean ====
section
/-! DEFINITION. The two word types of the block: the byte of a register window and the 16-bit request word
(00_scope.md R8, 30_encoding.md R101). -/

namespace Sys2Proof

/-- One byte: a window entry, a data byte, a sample-and-hold (20_memory.md R84). -/
abbrev Byte := BitVec 8

/-- One request word (30_encoding.md R101), and the width of a timer counter (00_scope.md R8). -/
abbrev Word := BitVec 16

end Sys2Proof
end

