-- ==== Sys2Proof/Syntax.lean ====
section
/-! DEFINITION. The requests of 30_encoding.md section 2: one constructor per row of spec/opcode_table.json. Every operand
has the width of its field in the request word, so a request with an operand out of range cannot be written. -/

namespace Sys2Proof

/-- One operation of the block (R101 to R108). -/
inductive Instr where
  /-- `CRD 0`: Controller read, port B (R145). -/
  | crd0
  /-- `CRD 1`: Controller read, port A with handshake (R146). -/
  | crd1
  /-- `CRD 2`: Controller read, direction register B (R147). -/
  | crd2
  /-- `CRD 3`: Controller read, direction register A (R148). -/
  | crd3
  /-- `CRD 4`: Controller read, timer-1 counter low (R149). -/
  | crd4
  /-- `CRD 5`: Controller read, timer-1 counter high (R150). -/
  | crd5
  /-- `CRD 6`: Controller read, timer-1 low latch (R151). -/
  | crd6
  /-- `CRD 7`: Controller read, timer-1 high latch (R152). -/
  | crd7
  /-- `CRD 8`: Controller read, timer-2 counter low (R153). -/
  | crd8
  /-- `CRD 9`: Controller read, timer-2 counter high (R154). -/
  | crd9
  /-- `CRD A`: Controller read, shift register (R155). -/
  | crdA
  /-- `CRD B`: Controller read, auxiliary control (R156). -/
  | crdB
  /-- `CRD C`: Controller read, peripheral control (R157). -/
  | crdC
  /-- `CRD D`: Controller read, interrupt flags (R158). -/
  | crdD
  /-- `CRD E`: Controller read, interrupt enables (R159). -/
  | crdE
  /-- `CRD F`: Controller read, port A without handshake (R160). -/
  | crdF
  /-- `CWR 0, d`: Controller write, port B (R161). -/
  | cwr0 (d : Byte)
  /-- `CWR 1, d`: Controller write, port A with handshake (R162). -/
  | cwr1 (d : Byte)
  /-- `CWR 2, d`: Controller write, direction register B (R163). -/
  | cwr2 (d : Byte)
  /-- `CWR 3, d`: Controller write, direction register A (R164). -/
  | cwr3 (d : Byte)
  /-- `CWR 4, d`: Controller write, timer-1 counter low (R165). -/
  | cwr4 (d : Byte)
  /-- `CWR 5, d`: Controller write, timer-1 counter high (R166). -/
  | cwr5 (d : Byte)
  /-- `CWR 6, d`: Controller write, timer-1 low latch (R167). -/
  | cwr6 (d : Byte)
  /-- `CWR 7, d`: Controller write, timer-1 high latch (R168). -/
  | cwr7 (d : Byte)
  /-- `CWR 8, d`: Controller write, timer-2 counter low (R169). -/
  | cwr8 (d : Byte)
  /-- `CWR 9, d`: Controller write, timer-2 counter high (R170). -/
  | cwr9 (d : Byte)
  /-- `CWR A, d`: Controller write, shift register (R171). -/
  | cwrA (d : Byte)
  /-- `CWR B, d`: Controller write, auxiliary control (R172). -/
  | cwrB (d : Byte)
  /-- `CWR C, d`: Controller write, peripheral control (R173). -/
  | cwrC (d : Byte)
  /-- `CWR D, d`: Controller write, interrupt flags (R174). -/
  | cwrD (d : Byte)
  /-- `CWR E, d`: Controller write, interrupt enables (R175). -/
  | cwrE (d : Byte)
  /-- `CWR F, d`: Controller write, port A without handshake (R176). -/
  | cwrF (d : Byte)
  /-- `SRD r`: Synthesizer read of register r (R260). -/
  | srd (r : BitVec 4)
  /-- `SWR 0, d`: Synthesizer write, voice A fine (R242). -/
  | swr0 (d : Byte)
  /-- `SWR 1, d`: Synthesizer write, voice A coarse (R243). -/
  | swr1 (d : Byte)
  /-- `SWR 2, d`: Synthesizer write, voice B fine (R244). -/
  | swr2 (d : Byte)
  /-- `SWR 3, d`: Synthesizer write, voice B coarse (R245). -/
  | swr3 (d : Byte)
  /-- `SWR 4, d`: Synthesizer write, voice C fine (R246). -/
  | swr4 (d : Byte)
  /-- `SWR 5, d`: Synthesizer write, voice C coarse (R247). -/
  | swr5 (d : Byte)
  /-- `SWR 6, d`: Synthesizer write, noise period (R248). -/
  | swr6 (d : Byte)
  /-- `SWR 7, d`: Synthesizer write, mixer enable (R249). -/
  | swr7 (d : Byte)
  /-- `SWR 8, d`: Synthesizer write, voice A volume (R251). -/
  | swr8 (d : Byte)
  /-- `SWR 9, d`: Synthesizer write, voice B volume (R252). -/
  | swr9 (d : Byte)
  /-- `SWR A, d`: Synthesizer write, voice C volume (R253). -/
  | swrA (d : Byte)
  /-- `SWR B, d`: Synthesizer write, envelope fine (R255). -/
  | swrB (d : Byte)
  /-- `SWR C, d`: Synthesizer write, envelope coarse (R256). -/
  | swrC (d : Byte)
  /-- `SWR D, d`: Synthesizer write, envelope shape (R257). -/
  | swrD (d : Byte)
  /-- `SWR E, d`: Synthesizer write, I/O latch A (R258). -/
  | swrE (d : Byte)
  /-- `SWR F, d`: Synthesizer write, I/O latch B (R259). -/
  | swrF (d : Byte)
  /-- `PHA`: Controller Phase A (R200). -/
  | pha
  /-- `BEAM`: Beam Engine step (R320). -/
  | beam
  /-- `PHB`: Controller Phase B (R214). -/
  | phb
  /-- `CYC`: one cycle (R360). -/
  | cyc
  /-- `IBEG`: instruction boundary (R361). -/
  | ibeg
  /-- `IEND n`: end of a CPU instruction of n cycles (R362). -/
  | iend (n : Byte)
  /-- `TICK`: one generator tick (R280). -/
  | tick
  /-- `SAMPLE`: one audio sample (R287). -/
  | sample
  /-- `RESET`: reset request (R420). -/
  | reset
  /-- `JOY k, v`: joystick axis k (R337). -/
  | joy (k : BitVec 2) (v : Byte)
  /-- `PSGIN v`: button input (R376). -/
  | psgin (v : Byte)
  deriving DecidableEq, Repr

/-- The agents that take steps (00_scope.md R16). -/
inductive Agent where
  /-- The CPU's accesses, the clocked steps and the instruction boundaries. -/
  | scheduler
  /-- `TICK` and `SAMPLE`. -/
  | audio
  /-- `RESET`, `JOY`, `PSGIN`. -/
  | host
  deriving DecidableEq, Repr

end Sys2Proof
end

