-- ==== Sys2Proof/WellFormed.lean ====
section
/-! DEFINITION. Which request words are well formed: the complement of the six clauses of 30_encoding.md R109, written
clause by clause and without the decoder. The operands of an `Instr` need no check of their own: their types hold exactly
the values the encoding admits. -/

namespace Sys2Proof.Word

/-- `w[15:13]`, the class (R101). -/
def cls (w : Word) : BitVec 3 := w.extractLsb' 13 3

/-- `w[12:8]`, the selection field (R101). -/
def sel (w : Word) : BitVec 5 := w.extractLsb' 8 5

/-- `w[11:8]`, the offset or register of a window request (R101). -/
def offset (w : Word) : BitVec 4 := w.extractLsb' 8 4

/-- `w[7:0]`, the data byte, cycle count or input value (R101). -/
def data (w : Word) : Byte := w.extractLsb' 0 8

/-- The class is one of the six that R102 names. -/
def classUsed (w : Word) : Bool := decide (w.cls.toNat < 6)

/-- R109: a window request has `w[12] = 0`. -/
def windowBitClear (w : Word) : Bool := decide (4 ≤ w.cls.toNat) || !w.getLsbD 12

/-- R109: a read (`CRD`, `SRD`) has `w[7:0] = 0`. -/
def readDataClear (w : Word) : Bool := !(w.cls == 0#3 || w.cls == 2#3) || w.data == 0#8

/-- R109: a `STEP` has its operation number in 0x00..0x08. -/
def stepUsed (w : Word) : Bool := w.cls != 4#3 || decide (w.sel.toNat < 9)

/-- R109: a `STEP` other than `IEND` has `w[7:0] = 0`. -/
def stepDataClear (w : Word) : Bool := w.cls != 4#3 || w.sel == 5#5 || w.data == 0#8

/-- R109: a `HOST` request has its operation number in 0x00..0x04. -/
def hostUsed (w : Word) : Bool := w.cls != 5#3 || decide (w.sel.toNat < 5)

/-- The request word is not reserved: no clause of R109 holds of it. -/
def wellFormed (w : Word) : Bool :=
  w.classUsed && w.windowBitClear && w.readDataClear && w.stepUsed && w.stepDataClear && w.hostUsed

end Sys2Proof.Word
end

