-- ==== Sys2Proof/Decode.lean ====
section
/-! DEFINITION. The decoder of request words (30_encoding.md R101 to R109), total on every word and refusing each reserved
word by the clause of R109 it falls under, and after it the encoder, written from the same encoding tables. -/

namespace Sys2Proof

/-- Why R109 reserves a word. Where two clauses hold of one word, the name is that of the first in this order
(assumption log 6). -/
inductive ReservedReason where
  /-- `cls` in {0b110, 0b111}. -/
  | reservedClass
  /-- `cls` in {0b000..0b011} with `w[12] = 1`. -/
  | windowBitSet
  /-- `CRD` or `SRD` with `w[7:0] != 0`. -/
  | readWithData
  /-- `STEP` with `w[12:8]` in 0x09..0x1F. -/
  | reservedStep
  /-- `STEP` other than `IEND` with `w[7:0] != 0`. -/
  | stepWithData
  /-- `HOST` with `w[12:8]` in 0x05..0x1F. -/
  | reservedHost
  deriving DecidableEq, Repr

/-- `CRD k` (R103). -/
def ctrlReadInstr (k : BitVec 4) : Instr :=
  match k.toNat with
  | 0 => .crd0
  | 1 => .crd1
  | 2 => .crd2
  | 3 => .crd3
  | 4 => .crd4
  | 5 => .crd5
  | 6 => .crd6
  | 7 => .crd7
  | 8 => .crd8
  | 9 => .crd9
  | 10 => .crdA
  | 11 => .crdB
  | 12 => .crdC
  | 13 => .crdD
  | 14 => .crdE
  | _ => .crdF

/-- `CWR k, d` (R104). -/
def ctrlWriteInstr (k : BitVec 4) (d : Byte) : Instr :=
  match k.toNat with
  | 0 => .cwr0 d
  | 1 => .cwr1 d
  | 2 => .cwr2 d
  | 3 => .cwr3 d
  | 4 => .cwr4 d
  | 5 => .cwr5 d
  | 6 => .cwr6 d
  | 7 => .cwr7 d
  | 8 => .cwr8 d
  | 9 => .cwr9 d
  | 10 => .cwrA d
  | 11 => .cwrB d
  | 12 => .cwrC d
  | 13 => .cwrD d
  | 14 => .cwrE d
  | _ => .cwrF d

/-- `SWR r, d` (R106). -/
def synWriteInstr (r : BitVec 4) (d : Byte) : Instr :=
  match r.toNat with
  | 0 => .swr0 d
  | 1 => .swr1 d
  | 2 => .swr2 d
  | 3 => .swr3 d
  | 4 => .swr4 d
  | 5 => .swr5 d
  | 6 => .swr6 d
  | 7 => .swr7 d
  | 8 => .swr8 d
  | 9 => .swr9 d
  | 10 => .swrA d
  | 11 => .swrB d
  | 12 => .swrC d
  | 13 => .swrD d
  | 14 => .swrE d
  | _ => .swrF d

/-- A window request (classes 0 to 3, R103 to R106): `w[12]`, the offset, the data byte; reads refuse a data byte. -/
def decodeWindow (read : Bool) (w : Word) (f : BitVec 4 → Byte → Instr) : Except ReservedReason Instr :=
  if w.getLsbD 12 then .error .windowBitSet
  else if read && w.extractLsb' 0 8 != 0#8 then .error .readWithData
  else .ok (f (w.extractLsb' 8 4) (w.extractLsb' 0 8))

/-- A `STEP` operation without operand: `w[7:0] = 0` (R107, R109). -/
def plainStep (d : Byte) (i : Instr) : Except ReservedReason Instr :=
  if d = 0#8 then .ok i else .error .stepWithData

/-- `STEP` operations (R107), by `w[12:8]`. -/
def decodeStep (op : BitVec 5) (d : Byte) : Except ReservedReason Instr :=
  match op.toNat with
  | 0 => plainStep d .pha
  | 1 => plainStep d .beam
  | 2 => plainStep d .phb
  | 3 => plainStep d .cyc
  | 4 => plainStep d .ibeg
  | 5 => .ok (.iend d)
  | 6 => plainStep d .tick
  | 7 => plainStep d .sample
  | 8 => plainStep d .reset
  | _ => .error .reservedStep

/-- `HOST` operations (R108), by `w[12:8]`: 0 to 3 are `JOY` with that axis, 4 is `PSGIN`. -/
def decodeHost (op : BitVec 5) (v : Byte) : Except ReservedReason Instr :=
  match op.toNat with
  | 0 => .ok (.joy 0#2 v)
  | 1 => .ok (.joy 1#2 v)
  | 2 => .ok (.joy 2#2 v)
  | 3 => .ok (.joy 3#2 v)
  | 4 => .ok (.psgin v)
  | _ => .error .reservedHost

/-- The decoder: by the class `w[15:13]` (R102). -/
def decode (w : Word) : Except ReservedReason Instr :=
  match (w.extractLsb' 13 3).toNat with
  | 0 => decodeWindow true w (fun k _ => ctrlReadInstr k)
  | 1 => decodeWindow false w ctrlWriteInstr
  | 2 => decodeWindow true w (fun r _ => .srd r)
  | 3 => decodeWindow false w synWriteInstr
  | 4 => decodeStep (w.extractLsb' 8 5) (w.extractLsb' 0 8)
  | 5 => decodeHost (w.extractLsb' 8 5) (w.extractLsb' 0 8)
  | _ => .error .reservedClass

/-- The high byte of a request, `w[15:8]`: class and selection (R103 to R108). -/
def Instr.highByte : Instr → Byte
  | .crd0 => 0x00#8
  | .crd1 => 0x01#8
  | .crd2 => 0x02#8
  | .crd3 => 0x03#8
  | .crd4 => 0x04#8
  | .crd5 => 0x05#8
  | .crd6 => 0x06#8
  | .crd7 => 0x07#8
  | .crd8 => 0x08#8
  | .crd9 => 0x09#8
  | .crdA => 0x0A#8
  | .crdB => 0x0B#8
  | .crdC => 0x0C#8
  | .crdD => 0x0D#8
  | .crdE => 0x0E#8
  | .crdF => 0x0F#8
  | .cwr0 _ => 0x20#8
  | .cwr1 _ => 0x21#8
  | .cwr2 _ => 0x22#8
  | .cwr3 _ => 0x23#8
  | .cwr4 _ => 0x24#8
  | .cwr5 _ => 0x25#8
  | .cwr6 _ => 0x26#8
  | .cwr7 _ => 0x27#8
  | .cwr8 _ => 0x28#8
  | .cwr9 _ => 0x29#8
  | .cwrA _ => 0x2A#8
  | .cwrB _ => 0x2B#8
  | .cwrC _ => 0x2C#8
  | .cwrD _ => 0x2D#8
  | .cwrE _ => 0x2E#8
  | .cwrF _ => 0x2F#8
  | .srd r => 0x40#8 ||| r.setWidth 8
  | .swr0 _ => 0x60#8
  | .swr1 _ => 0x61#8
  | .swr2 _ => 0x62#8
  | .swr3 _ => 0x63#8
  | .swr4 _ => 0x64#8
  | .swr5 _ => 0x65#8
  | .swr6 _ => 0x66#8
  | .swr7 _ => 0x67#8
  | .swr8 _ => 0x68#8
  | .swr9 _ => 0x69#8
  | .swrA _ => 0x6A#8
  | .swrB _ => 0x6B#8
  | .swrC _ => 0x6C#8
  | .swrD _ => 0x6D#8
  | .swrE _ => 0x6E#8
  | .swrF _ => 0x6F#8
  | .pha => 0x80#8
  | .beam => 0x81#8
  | .phb => 0x82#8
  | .cyc => 0x83#8
  | .ibeg => 0x84#8
  | .iend _ => 0x85#8
  | .tick => 0x86#8
  | .sample => 0x87#8
  | .reset => 0x88#8
  | .joy k _ => 0xA0#8 ||| k.setWidth 8
  | .psgin _ => 0xA4#8

/-- The low byte of a request, `w[7:0]`: the data byte, cycle count or input value, 0 where there is none (R101). -/
def Instr.lowByte : Instr → Byte
  | .crd0 => 0#8
  | .crd1 => 0#8
  | .crd2 => 0#8
  | .crd3 => 0#8
  | .crd4 => 0#8
  | .crd5 => 0#8
  | .crd6 => 0#8
  | .crd7 => 0#8
  | .crd8 => 0#8
  | .crd9 => 0#8
  | .crdA => 0#8
  | .crdB => 0#8
  | .crdC => 0#8
  | .crdD => 0#8
  | .crdE => 0#8
  | .crdF => 0#8
  | .cwr0 d => d
  | .cwr1 d => d
  | .cwr2 d => d
  | .cwr3 d => d
  | .cwr4 d => d
  | .cwr5 d => d
  | .cwr6 d => d
  | .cwr7 d => d
  | .cwr8 d => d
  | .cwr9 d => d
  | .cwrA d => d
  | .cwrB d => d
  | .cwrC d => d
  | .cwrD d => d
  | .cwrE d => d
  | .cwrF d => d
  | .srd _ => 0#8
  | .swr0 d => d
  | .swr1 d => d
  | .swr2 d => d
  | .swr3 d => d
  | .swr4 d => d
  | .swr5 d => d
  | .swr6 d => d
  | .swr7 d => d
  | .swr8 d => d
  | .swr9 d => d
  | .swrA d => d
  | .swrB d => d
  | .swrC d => d
  | .swrD d => d
  | .swrE d => d
  | .swrF d => d
  | .pha => 0#8
  | .beam => 0#8
  | .phb => 0#8
  | .cyc => 0#8
  | .ibeg => 0#8
  | .iend n => n
  | .tick => 0#8
  | .sample => 0#8
  | .reset => 0#8
  | .joy _ v => v
  | .psgin v => v

/-- The encoder: the request word of an instruction (R101). -/
def encode (i : Instr) : Word := (i.highByte.setWidth 16 <<< 8) ||| i.lowByte.setWidth 16

/-- The agent that issues a request (00_scope.md R16, 60_exceptions.md R403; for `SRD` and `SWR` assumption log 35). -/
def Instr.agent : Instr → Agent
  | .tick => .audio
  | .sample => .audio
  | .reset => .host
  | .joy _ _ => .host
  | .psgin _ => .host
  | .crd0 => .scheduler
  | .crd1 => .scheduler
  | .crd2 => .scheduler
  | .crd3 => .scheduler
  | .crd4 => .scheduler
  | .crd5 => .scheduler
  | .crd6 => .scheduler
  | .crd7 => .scheduler
  | .crd8 => .scheduler
  | .crd9 => .scheduler
  | .crdA => .scheduler
  | .crdB => .scheduler
  | .crdC => .scheduler
  | .crdD => .scheduler
  | .crdE => .scheduler
  | .crdF => .scheduler
  | .cwr0 _ => .scheduler
  | .cwr1 _ => .scheduler
  | .cwr2 _ => .scheduler
  | .cwr3 _ => .scheduler
  | .cwr4 _ => .scheduler
  | .cwr5 _ => .scheduler
  | .cwr6 _ => .scheduler
  | .cwr7 _ => .scheduler
  | .cwr8 _ => .scheduler
  | .cwr9 _ => .scheduler
  | .cwrA _ => .scheduler
  | .cwrB _ => .scheduler
  | .cwrC _ => .scheduler
  | .cwrD _ => .scheduler
  | .cwrE _ => .scheduler
  | .cwrF _ => .scheduler
  | .srd _ => .scheduler
  | .swr0 _ => .scheduler
  | .swr1 _ => .scheduler
  | .swr2 _ => .scheduler
  | .swr3 _ => .scheduler
  | .swr4 _ => .scheduler
  | .swr5 _ => .scheduler
  | .swr6 _ => .scheduler
  | .swr7 _ => .scheduler
  | .swr8 _ => .scheduler
  | .swr9 _ => .scheduler
  | .swrA _ => .scheduler
  | .swrB _ => .scheduler
  | .swrC _ => .scheduler
  | .swrD _ => .scheduler
  | .swrE _ => .scheduler
  | .swrF _ => .scheduler
  | .pha => .scheduler
  | .beam => .scheduler
  | .phb => .scheduler
  | .cyc => .scheduler
  | .ibeg => .scheduler
  | .iend _ => .scheduler

/-- The instruction the decoder reads from an opcode-table row's bits: the row is one request word of 16 bits, bit 0 its
least significant bit, and bits above `nbits` are 0 (assumption log 5). -/
def decodeTableWord (nbits w : Nat) : Option Instr :=
  match decode (BitVec.ofNat 16 (w % 2 ^ nbits)) with
  | .ok i => some i
  | .error _ => none

end Sys2Proof
end

