-- ==== Sys2Proof/Config.lean ====
section
/-! DEFINITION. The parameters of 00_scope.md R7 that the spec leaves OPEN with no value. Each is a constant without a
body, so that nothing can be proved about its value and whatever is proved holds for every value. The parameters to which
R7 gives the value "this spec uses" are the fields of `Params` (Machine/Params.lean), which State holds. -/

namespace Sys2Proof.Config

/-- `SUBTICKS_PER_SAMPLE` less one: R7 leaves the parameter OPEN but for "positive integer", so the parameter is this
free number plus one (assumption log 15). -/
opaque subticksPred : Nat

/-- `SUBTICKS_PER_SAMPLE`, a positive integer (R7, R287; assumption log 15). -/
def subticksPerSample : Nat := subticksPred + 1

/-- `MIX_SCALE`, OPEN (R7, R287; assumption log 15). -/
opaque mixScale : Rat

/-- `MIX_BIAS`, OPEN (R7, R287; assumption log 15). -/
opaque mixBias : Rat

/-- `CTRL_BASE` divided by 16, OPEN (R7, R82). DEDUCED: the offset of an address is its low 4 bits (R82), so the address of
offset 0 is a multiple of 16. DESIGN CHOICE: a CPU address is a natural number, since no file of spec/ gives its width
(assumption log 17). -/
opaque ctrlBlock : Nat

/-- `CTRL_BASE`, the CPU address of offset 0 of the Controller window (R7, R82; assumption log 17). -/
def ctrlBase : Nat := 16 * ctrlBlock

/-- The CPU addresses outside the 16 at `CTRL_BASE` that the bus collaborator routes to the Controller window as well, such as
a platform's mirrors; OPEN (R82, 92_eei_decisions.md D3; assumption log 17). -/
opaque ctrlMirror : Nat → Bool

/-- `SAVE_WIDTHS`: the byte width of the n-th persisted field, OPEN where R65 does not give it (R7, R65; assumption log 18). -/
opaque saveWidth : Nat → Nat

end Sys2Proof.Config
end

