-- ==== Sys2Proof/Machine/Params.lean ====
section
/-! DEFINITION. The configuration: the parameters of 00_scope.md R7 to which the spec gives the value "this spec uses unless
the model is instantiated otherwise", as fields of a structure that State holds (assumption log 41). The parameters that R7
leaves OPEN with no value are the constants of Config.lean. -/

namespace Sys2Proof.Machine

/-- One instantiation of R7's parameters. -/
structure Params where
  /-- `T1_LATCH_HI_WRITE_STARTS` (R168; 90_conflicts.md C1; assumption log 8). -/
  t1LatchHiWriteStarts : Bool
  /-- `HS_LOW_MODES` (R141; assumption log 9). -/
  hsLowModes : List (BitVec 3)
  /-- `PB_INPUT_MASK` (R145; 90_conflicts.md C6; assumption log 10). -/
  pbInputMask : Byte
  /-- `MAX_X` (R334; assumption log 11). -/
  maxX : Nat
  /-- `MAX_Y` (R334; assumption log 11). -/
  maxY : Nat
  /-- `POS_LIMIT` (R335; assumption log 12). -/
  posLimit : Nat
  /-- `FRAME_CYCLES` (R363; assumption log 13). -/
  frameCycles : Nat
  /-- `CPU_HZ`, informative: no rule depends on it (R434; assumption log 40). -/
  cpuHz : Nat
  /-- `VOL_TABLE[0..31]` (R60; assumption log 14). -/
  volTable : Vector Nat 32
  /-- `RNG_SEED` (R62; assumption log 16). -/
  rngSeed : BitVec 17
  /-- `PSG_INPUT_RESET` (R62; assumption log 16). -/
  psgInputReset : Byte
  deriving DecidableEq, Repr

namespace Params

/-- `CENTER_X = MAX_X div 2` (R7, R334; assumption log 11). -/
def centerX (p : Params) : Int := (p.maxX / 2 : Nat)

/-- `CENTER_Y = MAX_Y div 2` (R7, R334; assumption log 11). -/
def centerY (p : Params) : Int := (p.maxY / 2 : Nat)

/-- `VOL_TABLE[i]` for a 5-bit index (R60). -/
def vol (p : Params) (i : BitVec 5) : Nat := p.volTable[i.toNat]'i.isLt

/-- The values "this spec uses" (R7), with the default volume table of 92_eei_decisions.md D21. -/
def thisSpec : Params where
  t1LatchHiWriteStarts := true
  hsLowModes := [0b100#3, 0b101#3]
  pbInputMask := 0x20#8
  maxX := 33000
  maxY := 41000
  posLimit := 2147483648
  frameCycles := 50000
  cpuHz := 1500000
  volTable :=
    #v[0, 0, 27, 33, 39, 46, 55, 65, 77, 92, 109, 129, 154, 183, 217, 258,
       307, 365, 434, 516, 613, 728, 865, 1029, 1223, 1453, 1727, 2052, 2439, 2899, 3446, 4095]
  rngSeed := 1#17
  psgInputReset := 0xFF#8

end Params

end Sys2Proof.Machine
end

