-- ==== Sys2Proof/Machine/Operands.lean ====
section
/-! DEFINITION. Operand assembly and mode enumerations: 30_encoding.md sections 3 and 4, the control-register fields of
10_state.md R27 and R28, the port-B fields of 30_encoding.md R117. -/

namespace Sys2Proof.Machine

/-! ### Auxiliary control register, R27 -/

/-- ACR bit 7, PB7EN. -/
def acrPb7En (acr : Byte) : Bool := acr.getLsbD 7

/-- ACR bit 6, T1FREE. -/
def acrT1Free (acr : Byte) : Bool := acr.getLsbD 6

/-- ACR bit 5, T2PULSE. -/
def acrT2Pulse (acr : Byte) : Bool := acr.getLsbD 5

/-- ACR bit 4, BLANKSEL. -/
def acrBlankSel (acr : Byte) : Bool := acr.getLsbD 4

/-- The eight shift-register modes (R115). -/
inductive ShiftMode where
  | disabled
  | inDivided
  | inCycle
  | inExternal
  | outFree
  | outDivided
  | outCycle
  | outExternal
  deriving DecidableEq, Repr

/-- SRMODE, ACR bits 4:2, as an enumeration (R27, R115). -/
def shiftMode (acr : Byte) : ShiftMode :=
  match (acr.extractLsb' 2 3).toNat with
  | 0 => .disabled
  | 1 => .inDivided
  | 2 => .inCycle
  | 3 => .inExternal
  | 4 => .outFree
  | 5 => .outDivided
  | 6 => .outCycle
  | _ => .outExternal

/-! ### Peripheral control register, R28 -/

/-- Line 1's mode field, PCR bits 3:1. -/
def line1Field (pcr : Byte) : BitVec 3 := pcr.extractLsb' 1 3

/-- Line 2's mode field, PCR bits 7:5. -/
def line2Field (pcr : Byte) : BitVec 3 := pcr.extractLsb' 5 3

/-- The five classes of control-line modes (R28, R116). -/
inductive LineMode where
  | input
  | handshake
  | pulse
  | low
  | high
  deriving DecidableEq, Repr

/-- The class of a 3-bit line-mode field (R28, R116). -/
def lineMode (f : BitVec 3) : LineMode :=
  match f.toNat with
  | 4 => .handshake
  | 5 => .pulse
  | 6 => .low
  | 7 => .high
  | _ => .input

/-- `HsLow(f)`: a port access drives the line low (R141). -/
def hsLow (p : Params) (f : BitVec 3) : Bool := p.hsLowModes.contains f

/-- The level a PCR write gives a line: low exactly in the low output mode (R28, R173). -/
def pcrLevel (f : BitVec 3) : Bool := lineMode f != .low

/-! ### Timer operands, R110 -/

/-- A 16-bit timer value from its high and low byte: `(high << 8) | low`. -/
def timerValue (high low : Byte) : Word := (high.setWidth 16 <<< 8) ||| low.setWidth 16

/-- The low byte of a counter, read at the low offset. -/
def counterLow (c : Word) : Byte := c.extractLsb' 0 8

/-- The high byte of a counter, read at the high offset. -/
def counterHigh (c : Word) : Byte := c.extractLsb' 8 8

/-! ### Port-B fields as the reference wiring reads them, R117 -/

/-- `C.ORB[0] = 0`: the demultiplexer is enabled. -/
def demuxEnabled (orb : Byte) : Bool := !orb.getLsbD 0

/-- `C.ORB[2:1]`, the mux select. -/
def muxSelect (orb : Byte) : BitVec 2 := orb.extractLsb' 1 2

/-- `C.ORB[4:3]`, BDIR and BC1. -/
def psgControl (orb : Byte) : BitVec 2 := orb.extractLsb' 3 2

/-! ### Synthesizer operands, R112 to R114 -/

/-- Tone period of a fine and a coarse byte (R112). -/
def tonePeriod (fine coarse : Byte) : Nat := max 1 (fine.toNat + 256 * (coarse.extractLsb' 0 4).toNat)

/-- Noise period (R112). -/
def noisePeriod (d : Byte) : Nat := max 1 (d.extractLsb' 0 5).toNat

/-- Envelope period: the doubling comes before the clamp (R112). -/
def envPeriod (fine coarse : Byte) : Nat := max 1 (2 * (fine.toNat + 256 * coarse.toNat))

/-- The envelope-select bit M of a volume byte (R113). -/
def volEnvSelect (d : Byte) : Bool := d.getLsbD 4

/-- The table index of a level L: 0 for level 0, else the odd entry `2L + 1` (R113). -/
def volIndex (l : BitVec 4) : BitVec 5 := if l = 0#4 then 0#5 else BitVec.ofNat 5 (2 * l.toNat + 1)

/-- The fixed volume of a volume byte (R113). -/
def fixedVolume (p : Params) (d : Byte) : Nat := p.vol (volIndex (d.extractLsb' 0 4))

/-- What a shape byte decodes to (R114). -/
structure Shape where
  /-- `Hold`. -/
  hold : Bool
  /-- `Alt`. -/
  alt : Bool
  /-- `Attack`, the mask 0 or 31. -/
  attack : BitVec 5
  deriving DecidableEq, Repr

/-- The shape operand of a write to register 13 (R114): bit 2 attack, bit 3 continue, bit 0 hold, bit 1 alternate. -/
def decodeShape (d : Byte) : Shape :=
  let attack : BitVec 5 := if d.getLsbD 2 then 31#5 else 0#5
  if d.getLsbD 3 then
    { hold := d.getLsbD 0, alt := d.getLsbD 1, attack := attack }
  else
    { hold := true, alt := attack != 0#5, attack := attack }

end Sys2Proof.Machine
end

