-- ==== Sys2Proof/Machine/Devices.lean ====
section
/-! DEFINITION. The state of the three devices and of the glue between them, each element under the spec's own name
(10_state.md sections 1 to 4), as plain data. -/

namespace Sys2Proof.Machine

/-- Controller state, `C.` (10_state.md section 1). A 1-bit element is a Bool, 1 (high) being true. -/
structure Controller where
  /-- `C.ORA`, port-A output register (R22). -/
  ora : Byte
  /-- `C.ORB`, port-B output register (R22). -/
  orb : Byte
  /-- `C.DDRA` (R23). -/
  ddra : Byte
  /-- `C.DDRB` (R23). -/
  ddrb : Byte
  /-- `C.T1C`, timer-1 counter (R24). -/
  t1c : Word
  /-- `C.T1LL`, timer-1 low latch (R24). -/
  t1ll : Byte
  /-- `C.T1LH`, timer-1 high latch (R24). -/
  t1lh : Byte
  /-- `C.T1ON`, timer 1 running (R24). -/
  t1on : Bool
  /-- `C.T1ARM`, one-shot interrupt armed (R24). -/
  t1arm : Bool
  /-- `C.T1PB7`, the toggle output (R24). -/
  t1pb7 : Bool
  /-- `C.T2C`, timer-2 counter (R25). -/
  t2c : Word
  /-- `C.T2LL`, timer-2 low latch and shift-clock reload (R25). -/
  t2ll : Byte
  /-- `C.T2LH`, timer-2 high latch (R25). -/
  t2lh : Byte
  /-- `C.T2ON` (R25). -/
  t2on : Bool
  /-- `C.T2ARM` (R25). -/
  t2arm : Bool
  /-- `C.SR`, the shift register (R26). -/
  sr : Byte
  /-- `C.SRCNT`, bits shifted, 0..8 (R26). -/
  srcnt : Nat
  /-- `C.SRDIV`, shift-clock divider (R26). -/
  srdiv : Byte
  /-- `C.SRPH`, shift-clock phase (R26). -/
  srph : Bool
  /-- `C.ACR` (R27). -/
  acr : Byte
  /-- `C.PCR` (R28). -/
  pcr : Byte
  /-- `C.IFR`: seven flags and the aggregate in bit 7 (R29). -/
  ifr : Byte
  /-- `C.IER`: seven enables (R30). -/
  ier : BitVec 7
  /-- `C.CA2`, line 1's level (R31). -/
  ca2 : Bool
  /-- `C.CB2H`, line 2's handshake level (R31). -/
  cb2h : Bool
  /-- `C.CB2S`, line 2's shift-driven level (R31). -/
  cb2s : Bool
  deriving DecidableEq, Repr

/-- One tone voice with its volume and its high-time count (R42, R48). -/
structure Voice where
  /-- `S.Per[v]` (R42). -/
  per : Nat
  /-- `S.Cnt[v]` (R42). -/
  cnt : Int
  /-- `S.Out[v]` (R42). -/
  out : Bool
  /-- `S.EnvSel[v]` (R42). -/
  envSel : Bool
  /-- `S.Vol[v]` (R42). -/
  vol : Nat
  /-- `S.High[v]` (R48). -/
  high : Nat
  deriving DecidableEq, Repr

/-- Synthesizer state, `S.` (10_state.md section 2). -/
structure Synth where
  /-- `S.R[0..15]`, the raw register bytes (R40, R41). -/
  r : Vector Byte 16
  /-- Voice A, index 0 (R42). -/
  va : Voice
  /-- Voice B, index 1 (R42). -/
  vb : Voice
  /-- Voice C, index 2 (R42). -/
  vc : Voice
  /-- `S.PerN` (R43). -/
  perN : Nat
  /-- `S.CntN` (R43). -/
  cntN : Int
  /-- `S.OutN` (R43). -/
  outN : Bool
  /-- `S.RNG`, the noise shift register (R43). -/
  rng : BitVec 17
  /-- `S.PerE` (R44). -/
  perE : Nat
  /-- `S.CntE` (R44). -/
  cntE : Int
  /-- `S.Step`, the 5-bit descending step counter (R44). -/
  step : BitVec 5
  /-- `S.Hold` (R44). -/
  hold : Bool
  /-- `S.Alt` (R44). -/
  alt : Bool
  /-- `S.Attack`, the polarity mask, 0 or 31 (R44). -/
  attack : BitVec 5
  /-- `S.Holding` (R44). -/
  holding : Bool
  /-- `S.VolE` (R44). -/
  volE : Nat
  deriving DecidableEq, Repr

/-- A vector record: start, end, intensity (R56). -/
structure VecRec where
  x0 : Int
  y0 : Int
  x1 : Int
  y1 : Int
  /-- Intensity, in [0,127]. -/
  i : Byte
  deriving DecidableEq, Repr

/-- Beam Engine state, `B.` (10_state.md section 3). The sample-and-holds are the bytes last latched into them. -/
structure Beam where
  /-- `B.RSH`, reference (R50). -/
  rsh : Byte
  /-- `B.XSH` (R50). -/
  xsh : Byte
  /-- `B.YSH` (R50). -/
  ysh : Byte
  /-- `B.ZSH`, intensity, in [0,127] (R50). -/
  zsh : Byte
  /-- `B.J[0..3]`, joystick axes (R51). -/
  j : Vector Byte 4
  /-- `B.JSH` (R51). -/
  jsh : Byte
  /-- `B.CMP` (R52). -/
  cmp : Bool
  /-- `B.DX` (R53). -/
  dx : Int
  /-- `B.DY` (R53). -/
  dy : Int
  /-- `B.X` (R54). -/
  x : Int
  /-- `B.Y` (R54). -/
  y : Int
  /-- `B.TR`, tracing (R55). -/
  tr : Bool
  /-- `B.X0` (R55). -/
  x0 : Int
  /-- `B.Y0` (R55). -/
  y0 : Int
  /-- `B.X1` (R55). -/
  x1 : Int
  /-- `B.Y1` (R55). -/
  y1 : Int
  /-- `B.VDX` (R55). -/
  vdx : Int
  /-- `B.VDY` (R55). -/
  vdy : Int
  /-- `B.VI`, in [0,127] (R55). -/
  vi : Byte
  deriving DecidableEq, Repr

/-- Glue and scheduler state, `G.` (10_state.md section 4). -/
structure Glue where
  /-- `G.SEL`, the selected Synthesizer register (R57). -/
  sel : BitVec 4
  /-- `G.FRAME`, the frame cycle counter (R58). -/
  frame : Int
  /-- `G.VEC`, the records of this frame in emission order (R59). -/
  vec : List VecRec
  deriving DecidableEq, Repr

end Sys2Proof.Machine
end

