-- ==== Sys2Proof/Machine/Flags.lean ====
section
/-! DEFINITION. The interrupt flags: the aggregate bit, raising, clearing and enabling (10_state.md R29, R30, R32;
40_controller_bus.md R140, R174, R175; 60_exceptions.md R393 to R397). -/

namespace Sys2Proof.Machine

/-- The T1 flag, `C.IFR[6]` (R29). -/
def flagT1 : Byte := 0x40#8

/-- The T2 flag, `C.IFR[5]` (R29). -/
def flagT2 : Byte := 0x20#8

/-- The SR flag, `C.IFR[2]` (R29). -/
def flagSR : Byte := 0x04#8

/-- The aggregate `(flags & enables) != 0` (R29, R32). -/
def irqAggregate (ifr : Byte) (ier : BitVec 7) : Bool := (ifr.extractLsb' 0 7 &&& ier) != 0#7

/-- `IrqUpdate()`: bit 7 of the flag register becomes the aggregate; nothing else changes (R140). -/
def irqUpdate (c : Controller) : Controller :=
  { c with ifr := (c.ifr &&& 0x7F#8) ||| (if irqAggregate c.ifr c.ier then 0x80#8 else 0#8) }

/-- A flag rises, then `IrqUpdate()` (R201, R202, R213). -/
def raiseFlag (mask : Byte) (c : Controller) : Controller := irqUpdate { c with ifr := c.ifr ||| mask }

/-- Flags fall, then `IrqUpdate()` (R142 to R144, R149, R153, R174). -/
def clearFlags (mask : Byte) (c : Controller) : Controller := irqUpdate { c with ifr := c.ifr &&& ~~~mask }

/-- A write at 0xE: bit 7 selects set or clear of the enables named by bits 6:0 (R111, R175). -/
def writeEnables (d : Byte) (c : Controller) : Controller :=
  let m : BitVec 7 := d.extractLsb' 0 7
  irqUpdate { c with ier := if d.getLsbD 7 then c.ier ||| m else c.ier &&& ~~~m }

end Sys2Proof.Machine
end

