-- ==== Sys2Proof/Machine/ControllerOps.lean ====
section
/-! DEFINITION. Shared operations of the Controller: the subprocedures of 40_controller_bus.md section 1, the two clocked
phases of 41_controller_cycle.md, and the signals the Beam Engine reads (44_beam_engine.md R325, R327). -/

namespace Sys2Proof.Machine.Controller

/-- `T1Start()` (R142). -/
def t1Start (c : Controller) : Controller :=
  clearFlags flagT1 { c with t1c := timerValue c.t1lh c.t1ll, t1on := true, t1arm := true, t1pb7 := false }

/-- The effects of a read at 0x4: flag cleared, timer 1 stopped and disarmed, toggle high (R149). -/
def t1Stop (c : Controller) : Controller :=
  clearFlags flagT1 { c with t1on := false, t1arm := false, t1pb7 := true }

/-- `T2Start(d)` (R143). -/
def t2Start (d : Byte) (c : Controller) : Controller :=
  clearFlags flagT2 { c with t2lh := d, t2c := timerValue d c.t2ll, t2on := true, t2arm := true }

/-- The effects of a read at 0x8: flag cleared, timer 2 stopped and disarmed (R153). -/
def t2Stop (c : Controller) : Controller :=
  clearFlags flagT2 { c with t2on := false, t2arm := false }

/-- `SrAccess()` (R144). -/
def srAccess (c : Controller) : Controller :=
  clearFlags flagSR { c with srcnt := 0, srph := true }

/-- A port access at 0x1 drives line 1 low in an `HS_LOW_MODES` mode (R146, R162). -/
def line1Access (p : Params) (c : Controller) : Controller :=
  if hsLow p (line1Field c.pcr) then { c with ca2 := false } else c

/-- A write at 0x0 drives line 2 low in an `HS_LOW_MODES` mode (R161). -/
def line2Access (p : Params) (c : Controller) : Controller :=
  if hsLow p (line2Field c.pcr) then { c with cb2h := false } else c

/-- A write at 0xC: the register and both line levels (R173). -/
def writePcr (d : Byte) (c : Controller) : Controller :=
  { c with pcr := d, ca2 := pcrLevel (line1Field d), cb2h := pcrLevel (line2Field d) }

/-- A port-B read composed of the output register, the toggle and the input hook's byte, with the masks R145 gives a model
instantiated with any `PB_INPUT_MASK`; bit 7 is never taken from the hook (R145; assumption log 10). -/
def portB (p : Params) (hook : Byte) (c : Controller) : Byte :=
  let m := p.pbInputMask &&& 0x7F#8
  if acrPb7En c.acr then
    (c.orb &&& ~~~(0x80#8 ||| m)) ||| (if c.t1pb7 then 0x80#8 else 0#8) ||| (hook &&& m)
  else
    (c.orb &&& ~~~m) ||| (hook &&& m)

/-- A write at 0x7: the high latch, and the start of timer 1 when `T1_LATCH_HI_WRITE_STARTS` (R168; 90_conflicts.md C1). -/
def writeT1LatchHigh (p : Params) (d : Byte) (c : Controller) : Controller :=
  if p.t1LatchHiWriteStarts then { c with t1lh := d }.t1Start else { c with t1lh := d }

/-- `Timer1Step()` (R201). -/
def timer1Step (c : Controller) : Controller :=
  if c.t1on then
    let c1 := { c with t1c := c.t1c - 1#16 }
    if c1.t1c = 0xFFFF#16 then
      if acrT1Free c.acr then
        raiseFlag flagT1 { c1 with t1pb7 := !c1.t1pb7, t1c := timerValue c.t1lh c.t1ll }
      else if c.t1arm then
        raiseFlag flagT1 { c1 with t1pb7 := true, t1arm := false }
      else c1
    else c1
  else c

/-- `Timer2Step()` (R202). -/
def timer2Step (c : Controller) : Controller :=
  if c.t2on && !acrT2Pulse c.acr then
    let c1 := { c with t2c := c.t2c - 1#16 }
    if c1.t2c = 0xFFFF#16 && c.t2arm then raiseFlag flagT2 { c1 with t2arm := false } else c1
  else c

/-- `DividerStep()`: the state after it and the shift pulse (R203). -/
def dividerStep (c : Controller) : Controller × Bool :=
  let n := c.srdiv - 1#8
  if n = 0xFF#8 then
    ({ c with srdiv := c.t2ll, srph := !c.srph }, c.srph)
  else
    ({ c with srdiv := n }, false)

/-- One shift in: no data input is modelled, so bit 0 takes 0 (R206, R207). -/
def shiftIn (c : Controller) : Controller := { c with sr := c.sr <<< 1, srcnt := c.srcnt + 1 }

/-- One shift out: the line takes the top bit, which rotates into bit 0 (R209 to R211). -/
def shiftOut (c : Controller) : Controller :=
  { c with cb2s := c.sr.getLsbD 7, sr := (c.sr <<< 1) ||| (if c.sr.getLsbD 7 then 1#8 else 0#8) }

/-- A shift counted: `C.SRCNT <- C.SRCNT + 1` (R210, R211). -/
def countShift (c : Controller) : Controller := { c with srcnt := c.srcnt + 1 }

/-- `ShiftMode[m](pulse)` (R205 to R212). -/
def shiftByMode (pulse : Bool) (c : Controller) : Controller :=
  match shiftMode c.acr with
  | .disabled => c
  | .inDivided => if pulse then c.shiftIn else c
  | .inCycle => c.shiftIn
  | .inExternal => c
  | .outFree => if pulse then c.shiftOut else c
  | .outDivided => if pulse then c.shiftOut.countShift else c
  | .outCycle => c.shiftOut.countShift
  | .outExternal => c

/-- `ShiftStep(pulse)`, with `ShiftDone()` when the count reaches 8 (R204, R213). -/
def shiftStep (pulse : Bool) (c : Controller) : Controller :=
  if c.srcnt < 8 then
    let c1 := c.shiftByMode pulse
    if c1.srcnt = 8 then raiseFlag flagSR c1 else c1
  else c

/-- `PhaseA()`: timer 1, timer 2, divider, shift register, in this order (R200). -/
def phaseA (c : Controller) : Controller :=
  let d := c.timer1Step.timer2Step.dividerStep
  d.1.shiftStep d.2

/-- `PhaseB()`: a line in pulse mode returns high (R214). -/
def phaseB (c : Controller) : Controller :=
  { c with
    ca2 := if lineMode (line1Field c.pcr) = .pulse then true else c.ca2
    cb2h := if lineMode (line2Field c.pcr) = .pulse then true else c.cb2h }

/-- `BlankSignal()`; true is "beam on" (R325). -/
def blankSignal (c : Controller) : Bool := if acrBlankSel c.acr then c.cb2s else c.cb2h

/-- `Ramp()`; false lets the beam move (R327). -/
def ramp (c : Controller) : Bool := if acrPb7En c.acr then c.t1pb7 else c.orb.getLsbD 7

end Sys2Proof.Machine.Controller
end

