-- ==== Sys2Proof/Machine/BeamOps.lean ====
section
/-! DEFINITION. Shared operations of the Beam Engine (44_beam_engine.md). -/

namespace Sys2Proof.Machine

/-- `InB(x, y)` (R334). -/
def inBounds (p : Params) (x y : Int) : Bool := decide (0 ≤ x ∧ x < p.maxX ∧ 0 ≤ y ∧ y < p.maxY)

namespace Beam

/-- The intensity an X value latches (R322). -/
def intensityOf (x : Byte) : Byte := if 128 < x.toNat then x - 128#8 else 0#8

/-- `B.J[m]` (R51). -/
def axis (b : Beam) (m : BitVec 2) : Byte := b.j[m.toNat]'m.isLt

/-- `B.J[m] <- v` (R337). -/
def setAxis (m : BitVec 2) (v : Byte) (b : Beam) : Beam := { b with j := b.j.set m.toNat v m.isLt }

/-- The sample-and-hold that mux value `m` latches from X (R321, R322). -/
def latch (m : BitVec 2) (b : Beam) : Beam :=
  match m.toNat with
  | 0 => { b with ysh := b.xsh }
  | 1 => { b with rsh := b.xsh }
  | 2 => { b with zsh := intensityOf b.xsh }
  | _ => b

/-- Mux and demultiplexer (R321). -/
def muxUpdate (orb : Byte) (b : Beam) : Beam :=
  let b1 := { b with jsh := b.axis (muxSelect orb) }
  if demuxEnabled orb then b1.latch (muxSelect orb) else b1

/-- The compare bit and the velocity deltas from the sample-and-holds (R323, R324). -/
def derive (b : Beam) : Beam :=
  { b with
    cmp := decide (b.xsh.toNat < b.jsh.toNat)
    dx := (b.xsh.toNat : Int) - (b.rsh.toNat : Int)
    dy := (b.rsh.toNat : Int) - (b.ysh.toNat : Int) }

/-- `SampleUpdate()` (R321 to R324). -/
def sampleUpdate (orb : Byte) (b : Beam) : Beam := (b.muxUpdate orb).derive

/-- `BeamSetX(v)` (R336). -/
def setX (orb v : Byte) (b : Beam) : Beam := { b with xsh := v }.sampleUpdate orb

/-- `Velocity()` (R326, R328). -/
def velocity (p : Params) (c : Controller) (b : Beam) : Int × Int :=
  if !c.ca2 then (p.centerX - b.x, p.centerY - b.y)
  else if !c.ramp then (b.dx, b.dy)
  else (0, 0)

/-- A vector starts at the current position with the step's velocity and the current intensity (R329, R331). -/
def startVector (v : Int × Int) (b : Beam) : Beam :=
  { b with
    tr := true, x0 := b.x, y0 := b.y, x1 := b.x, y1 := b.y
    vdx := v.1, vdy := v.2, vi := b.zsh }

/-- The record of the vector in progress (R330, R331). -/
def record (b : Beam) : VecRec := { x0 := b.x0, y0 := b.y0, x1 := b.x1, y1 := b.y1, i := b.vi }

/-- The velocity or the intensity differs from the vector's (R331). -/
def changed (v : Int × Int) (b : Beam) : Bool := v.1 != b.vdx || v.2 != b.vdy || b.zsh != b.vi

/-- `TraceFSM(blank, vx, vy)`: the state after it and the record emitted, if any (R329 to R331). -/
def traceFsm (p : Params) (blank : Bool) (v : Int × Int) (b : Beam) : Beam × Option VecRec :=
  if !b.tr then
    if blank && inBounds p b.x b.y then (b.startVector v, none) else (b, none)
  else if !blank then
    ({ b with tr := false }, some b.record)
  else if b.changed v then
    (if inBounds p b.x b.y then b.startVector v else { b with tr := false }, some b.record)
  else (b, none)

/-- Integration (R332). -/
def integrate (v : Int × Int) (b : Beam) : Beam := { b with x := b.x + v.1, y := b.y + v.2 }

/-- `Extend()` (R333). -/
def extend (p : Params) (b : Beam) : Beam := if b.tr && inBounds p b.x b.y then { b with x1 := b.x, y1 := b.y } else b

/-- The Beam Engine's part of a step, with the record emitted: all of R320 but the guard. -/
def advance (p : Params) (c : Controller) (b : Beam) : Beam × Option VecRec :=
  let b1 := b.sampleUpdate c.orb
  let v := velocity p c b1
  let t := b1.traceFsm p c.blankSignal v
  ((t.1.integrate v).extend p, t.2)

/-- The position guard's condition: a coordinate's magnitude has reached `POS_LIMIT` (R335). -/
def beyondLimit (p : Params) (b : Beam) : Bool := decide (p.posLimit ≤ b.x.natAbs ∨ p.posLimit ≤ b.y.natAbs)

end Beam

end Sys2Proof.Machine
end

