-- ==== Sys2Proof/Machine/SynthOps.lean ====
section
/-! DEFINITION. Shared operations of the Synthesizer: the register window (42_synth_registers.md) and the generators
(43_synth_generators.md). -/

namespace Sys2Proof.Machine.Synth

/-- `S.R[k]` (R40, R260). -/
def reg (s : Synth) (k : BitVec 4) : Byte := s.r[k.toNat]'k.isLt

/-- `S.R[k] <- d`, all 8 bits (R240). -/
def setReg (k : BitVec 4) (d : Byte) (s : Synth) : Synth := { s with r := s.r.set k.toNat d k.isLt }

/-- Voice k, k = 0, 1, 2 (R42). -/
def voice (s : Synth) : Fin 3 → Voice
  | 0 => s.va
  | 1 => s.vb
  | 2 => s.vc

/-- Change voice k only. -/
def mapVoice (k : Fin 3) (f : Voice → Voice) (s : Synth) : Synth :=
  match k with
  | 0 => { s with va := f s.va }
  | 1 => { s with vb := f s.vb }
  | 2 => { s with vc := f s.vc }

/-- `for v in 0..2`. -/
def mapVoices (f : Fin 3 → Voice → Voice) (s : Synth) : Synth :=
  { s with va := f 0 s.va, vb := f 1 s.vb, vc := f 2 s.vc }

/-- A running counter moved by the change of its period, and set to 1 if that is not positive (R241, R248, R254). -/
def movedCount (cnt : Int) (old new : Nat) : Int :=
  let n := cnt + ((new : Int) - (old : Int))
  if n ≤ 0 then 1 else n

/-- A voice's period becomes `p` (R241). -/
def retune (p : Nat) (v : Voice) : Voice := { v with per := p, cnt := movedCount v.cnt v.per p }

/-- `TonePeriodUpdate(k)` from a register pair (R241). -/
def tonePeriodUpdate (k : Fin 3) (fine coarse : BitVec 4) (s : Synth) : Synth :=
  s.mapVoice k (retune (tonePeriod (s.reg fine) (s.reg coarse)))

/-- `NoisePeriodUpdate()` (R248). -/
def noisePeriodUpdate (s : Synth) : Synth :=
  let p := noisePeriod (s.reg 6#4)
  { s with perN := p, cntN := movedCount s.cntN s.perN p }

/-- `EnvPeriodUpdate()` (R254). -/
def envPeriodUpdate (s : Synth) : Synth :=
  let p := envPeriod (s.reg 11#4) (s.reg 12#4)
  { s with perE := p, cntE := movedCount s.cntE s.perE p }

/-- The volume of a voice from its volume byte and the envelope's volume (R250). -/
def voiceVolume (p : Params) (d : Byte) (volE : Nat) : Nat := if volEnvSelect d then volE else fixedVolume p d

/-- `VolumeUpdate(k)` from voice k's volume register (R250). -/
def volumeUpdate (p : Params) (k : Fin 3) (r : BitVec 4) (s : Synth) : Synth :=
  s.mapVoice k fun v => { v with envSel := volEnvSelect (s.reg r), vol := voiceVolume p (s.reg r) s.volE }

/-- An envelope-driven voice takes the envelope's volume (R257, R283). -/
def followEnv (volE : Nat) (v : Voice) : Voice := if v.envSel then { v with vol := volE } else v

/-- `S.VolE <- VOL_TABLE[S.Step XOR S.Attack]`, handed to every envelope-driven voice (R257, R283). -/
def envVolumeUpdate (p : Params) (s : Synth) : Synth :=
  let e := p.vol (s.step ^^^ s.attack)
  { s with volE := e }.mapVoices fun _ => followEnv e

/-- The decoded shape, and the envelope restarted at the top with a full period (R257). -/
def shapeStart (d : Byte) (s : Synth) : Synth :=
  let sh := decodeShape d
  { s with attack := sh.attack, hold := sh.hold, alt := sh.alt, cntE := s.perE, step := 31#5, holding := false }

/-- `ShapeWrite(d)` (R257). -/
def shapeWrite (p : Params) (d : Byte) (s : Synth) : Synth := (s.shapeStart d).envVolumeUpdate p

/-- What a write does after the raw byte is stored, by register (R240). -/
def afterWrite (p : Params) (k : BitVec 4) (d : Byte) (s : Synth) : Synth :=
  match k.toNat with
  | 0 => s.tonePeriodUpdate 0 0#4 1#4
  | 1 => s.tonePeriodUpdate 0 0#4 1#4
  | 2 => s.tonePeriodUpdate 1 2#4 3#4
  | 3 => s.tonePeriodUpdate 1 2#4 3#4
  | 4 => s.tonePeriodUpdate 2 4#4 5#4
  | 5 => s.tonePeriodUpdate 2 4#4 5#4
  | 6 => s.noisePeriodUpdate
  | 8 => s.volumeUpdate p 0 8#4
  | 9 => s.volumeUpdate p 1 9#4
  | 10 => s.volumeUpdate p 2 10#4
  | 11 => s.envPeriodUpdate
  | 12 => s.envPeriodUpdate
  | 13 => s.shapeWrite p d
  | _ => s

/-- `SynWrite(r, d)`: the raw byte is stored whole, then the register's own rule runs (R240). -/
def write (p : Params) (k : BitVec 4) (d : Byte) (s : Synth) : Synth := (s.setReg k d).afterWrite p k d

/-- `ToneStep(v)` (R281). -/
def toneStep (v : Voice) : Voice :=
  let n := v.cnt - 1
  if n ≤ 0 then { v with cnt := n + v.per, out := !v.out } else { v with cnt := n }

/-- The noise register after one underflow: the 18-bit constant 0x24000 is XORed in when bit 0 is 1, then the register
shifts right (R282). -/
def nextRng (g : BitVec 17) : BitVec 17 :=
  let w : BitVec 18 := g.setWidth 18
  ((if g.getLsbD 0 then w ^^^ 0x24000#18 else w) >>> 1).setWidth 17

/-- `NoiseStep()` (R282). -/
def noiseStep (s : Synth) : Synth :=
  let n := s.cntN - 1
  if n ≤ 0 then
    { s with
      cntN := n + s.perN
      outN := if s.rng.getLsbD 0 != s.rng.getLsbD 1 then !s.outN else s.outN
      rng := nextRng s.rng }
  else { s with cntN := n }

/-- The attack mask inverted when the alternate flag is set: `if S.Alt = 1: S.Attack <- S.Attack XOR 31` (R284). -/
def altAttack (s : Synth) : BitVec 5 := if s.alt then s.attack ^^^ 31#5 else s.attack

/-- `EnvBottom()` (R284). -/
def envBottom (s : Synth) : Synth :=
  if s.hold then { s with attack := s.altAttack, holding := true, step := 0#5 }
  else { s with attack := s.altAttack, step := 31#5 }

/-- The step counter one lower, or the bottom rules where that is below 0 (R283). -/
def envDescend (s : Synth) : Synth :=
  if s.step = 0#5 then s.envBottom else { s with step := s.step - 1#5 }

/-- `EnvStep()` (R283). -/
def envStep (p : Params) (s : Synth) : Synth :=
  if s.holding then s
  else
    let n := s.cntE - 1
    if n ≤ 0 then { s with cntE := n + s.perE }.envDescend.envVolumeUpdate p
    else { s with cntE := n }

/-- `MixBit(v)` from the enable mask `e = S.R[7]`; `k` is the voice's index (R285). -/
def mixBit (s : Synth) (k : Fin 3) (v : Voice) : Bool :=
  (v.out || (s.reg 7#4).getLsbD k.val) && (s.outN || (s.reg 7#4).getLsbD (3 + k.val))

/-- The tick's high-time accumulation (R280, R286). -/
def accumulate (s : Synth) : Synth :=
  s.mapVoices fun k v => { v with high := v.high + (s.mixBit k v).toNat }

/-- `Tick()` (R280). -/
def tick (p : Params) (s : Synth) : Synth := ((s.mapVoices fun _ => toneStep).noiseStep.envStep p).accumulate

/-- `repeat n times: Tick()`. -/
def ticks (p : Params) : Nat → Synth → Synth
  | 0, s => s
  | n + 1, s => ticks p n (s.tick p)

/-- The accumulators cleared, at the start of a sample (R287). -/
def clearHigh (s : Synth) : Synth := s.mapVoices fun _ v => { v with high := 0 }

/-- The state part of `Sample()` (R287). -/
def sampleTicks (p : Params) (s : Synth) : Synth := s.clearHigh.ticks p Config.subticksPerSample

/-- The weighted sum of the three voices (R287). -/
def mixSum (s : Synth) : Nat := s.va.high * s.va.vol + s.vb.high * s.vb.vol + s.vc.high * s.vc.vol

/-- The value a sample returns: `MIX_BIAS + MIX_SCALE * acc / SUBTICKS_PER_SAMPLE` (R287). -/
def mixValue (s : Synth) : Rat :=
  Config.mixBias + Config.mixScale * (s.mixSum : Rat) / (Config.subticksPerSample : Rat)

/-- `S.R[14] <- v`, the button input latch (R376). -/
def input (v : Byte) (s : Synth) : Synth := s.setReg 14#4 v

end Sys2Proof.Machine.Synth
end

