-- ==== Sys2Proof/Machine/ResetValues.lean ====
section
/-! DEFINITION. The reset values (10_state.md section 6). The values of 10_state.md R61 to R64 are the spec's own decisions
D15 to D17 (assumption logs 19 to 22). -/

namespace Sys2Proof.Machine

/-- Controller reset values (R61). -/
def Controller.atReset : Controller where
  ora := 0#8
  orb := 0#8
  ddra := 0#8
  ddrb := 0#8
  t1c := 0#16
  t1ll := 0#8
  t1lh := 0#8
  t1on := false
  t1arm := false
  t1pb7 := true
  t2c := 0#16
  t2ll := 0#8
  t2lh := 0#8
  t2on := false
  t2arm := false
  sr := 0#8
  srcnt := 8
  srdiv := 0#8
  srph := false
  acr := 0#8
  pcr := 0#8
  ifr := 0#8
  ier := 0#7
  ca2 := true
  cb2h := true
  cb2s := false

/-- A voice as the reset state has it (R62, "the result"). -/
def Voice.atReset : Voice where
  per := 1
  cnt := 1
  out := false
  envSel := false
  vol := 0
  high := 0

/-- Synthesizer reset values as R62 gives its result. -/
def Synth.atReset (p : Params) : Synth where
  r := (Vector.replicate 16 0#8).set 14 p.psgInputReset
  va := Voice.atReset
  vb := Voice.atReset
  vc := Voice.atReset
  perN := 1
  cntN := 1
  outN := true
  rng := p.rngSeed
  perE := 1
  cntE := 1
  step := 31#5
  hold := true
  alt := false
  attack := 0#5
  holding := false
  volE := p.vol 31#5

/-- The state R62's procedure starts from: every raw register and derived numeric field 0, the seed, `S.OutN` 1. -/
def Synth.zeroed (p : Params) : Synth where
  r := Vector.replicate 16 0#8
  va := { per := 0, cnt := 0, out := false, envSel := false, vol := 0, high := 0 }
  vb := { per := 0, cnt := 0, out := false, envSel := false, vol := 0, high := 0 }
  vc := { per := 0, cnt := 0, out := false, envSel := false, vol := 0, high := 0 }
  perN := 0
  cntN := 0
  outN := true
  rng := p.rngSeed
  perE := 0
  cntE := 0
  step := 0#5
  hold := false
  alt := false
  attack := 0#5
  holding := false
  volE := 0

/-- `SynWrite(r, 0x00)` for each register of a list, in its order (R62). -/
def Synth.writeZeros (p : Params) : List (BitVec 4) → Synth → Synth
  | [], s => s
  | r :: rs, s => writeZeros p rs (s.write p r 0#8)

/-- The reset procedure of the Synthesizer (R62). -/
def Synth.resetProcedure (p : Params) : Synth :=
  ((Synth.zeroed p).writeZeros p
    [0#4, 1#4, 2#4, 3#4, 4#4, 5#4, 6#4, 7#4, 8#4, 9#4, 10#4, 11#4, 12#4, 13#4, 14#4, 15#4]).setReg 14#4 p.psgInputReset

/-- Beam Engine reset values (R63). -/
def Beam.atReset (p : Params) : Beam where
  rsh := 128#8
  xsh := 128#8
  ysh := 128#8
  zsh := 0#8
  j := Vector.replicate 4 128#8
  jsh := 128#8
  cmp := false
  dx := 0
  dy := 0
  x := p.centerX
  y := p.centerY
  tr := false
  x0 := 0
  y0 := 0
  x1 := 0
  y1 := 0
  vdx := 0
  vdy := 0
  vi := 0#8

/-- Glue reset values (R64). -/
def Glue.atReset (p : Params) : Glue where
  sel := 0#4
  frame := p.frameCycles
  vec := []

end Sys2Proof.Machine
end

