-- ==== Sys2Proof/Machine/State.lean ====
section
/-! DEFINITION. State: everything the spec gives the block, and three fields of the model's own, the configuration, the
requests not yet served and what the block has given its surroundings; the reasons a step can stop; the state after reset. -/

namespace Sys2Proof.Machine

/-- One thing the block gives its surroundings (00_scope.md R6). -/
inductive Output where
  /-- The byte a window read returns (R103, R105). -/
  | byte (b : Byte)
  /-- The interrupt lines `IBEG` hands to the CPU: maskable, non-maskable (R361). -/
  | irqLines (irq nmi : Bool)
  /-- The value an audio sample returns (R287). -/
  | sample (v : Rat)
  /-- One call of the vector sink `emit_line` (R364). -/
  | line (v : VecRec)
  /-- One call of the frame-flush callback with the frame's records (R363). -/
  | frameFlush (vs : List VecRec)
  deriving DecidableEq, Repr

/-- What the agents have issued next (20_memory.md R90, R91; assumption logs 1 and 3). -/
inductive Issue where
  /-- One request word, served alone. -/
  | one (w : Word)
  /-- Two request words of two agents, issued without the serialisation that R91 requires. -/
  | together (w₁ w₂ : Word)
  deriving DecidableEq, Repr

/-- The state of the block, and the model's own `cfg`, `out` and `pending`. -/
structure State where
  /-- MODEL'S OWN: the configuration the model is instantiated with (00_scope.md R7; assumption log 41). No request writes it. -/
  cfg : Params
  /-- The Controller, `C.` -/
  c : Controller
  /-- The Synthesizer, `S.` -/
  syn : Synth
  /-- The Beam Engine, `B.` -/
  b : Beam
  /-- The glue and the scheduler, `G.` -/
  g : Glue
  /-- MODEL'S OWN: what the block has given its surroundings, oldest first (assumption log 4). -/
  out : List Output
  /-- MODEL'S OWN: the request stream not yet served, next first (10_state.md R21; assumption log 1). -/
  pending : List Issue
  deriving DecidableEq, Repr

/-- Why the machine stops with a fault. -/
inductive Fault where
  /-- Raised by a Beam Engine step (`BEAM`, `CYC`, `IEND`) after whose integration a coordinate's magnitude is at least
  `POS_LIMIT` (44_beam_engine.md R335, 60_exceptions.md R392). Safe: the model stops where the spec says no source answers
  (assumption log 12). -/
  | beamPositionBeyondPosLimit
  deriving DecidableEq, Repr

/-- Why a request gets no meaning. -/
inductive Refusal where
  /-- Raised only by an arm of `exec` whose instruction has no meaning yet. Safe: nothing can be proved of it. -/
  | notModelled (mnemonic : String)
  /-- Raised by `step` for a reserved request word (30_encoding.md R109, 60_exceptions.md R392), with the clause it falls
  under. Safe: the spec itself refuses the word (assumption logs 6 and 7). -/
  | reservedRequest (why : ReservedReason)
  /-- Raised by `step` for two agents' requests issued without serialisation (20_memory.md R91, 60_exceptions.md R392).
  Safe: the spec itself refuses the run (assumption log 3). -/
  | overlappingAgentSteps
  deriving DecidableEq, Repr

/-- The result of one step of this machine. -/
abbrev Res := Host.Outcome State Fault Refusal

/-- The block after reset (70_reset_and_hazards.md R420), with the parameters at the values "this spec uses"
(00_scope.md R7; assumption log 41), and with nothing issued and nothing given out yet. -/
def State.reset : State where
  cfg := Params.thisSpec
  c := Controller.atReset
  syn := Synth.atReset Params.thisSpec
  b := Beam.atReset Params.thisSpec
  g := Glue.atReset Params.thisSpec
  out := []
  pending := []

end Sys2Proof.Machine
end

