-- ==== Sys2Proof/Machine/Ops.lean ====
section
/-! DEFINITION. Operations over the whole state: updates of one part, sequencing, the port hooks and the register-select
protocol of the reference wiring (45_scheduler.md section 3), emission, the Beam Engine step with its guard, the cycle and
the frame accounting.

The block takes no exception and has none to return from (60_exceptions.md R390, R400, R401), so there is no operation for
either; what the block does for an interrupt is hand `C.IFR[7]` to the CPU (R397), which `irqLine` reads. -/

namespace Sys2Proof.Machine

namespace State

/-- Change the Controller only. -/
def mapC (f : Controller → Controller) (s : State) : State := { s with c := f s.c }

/-- Change the Synthesizer only. -/
def mapSyn (f : Synth → Synth) (s : State) : State := { s with syn := f s.syn }

/-- Change the Beam Engine only. -/
def mapB (f : Beam → Beam) (s : State) : State := { s with b := f s.b }

/-- Change the glue only. -/
def mapG (f : Glue → Glue) (s : State) : State := { s with g := f s.g }

/-- Give one thing to the surroundings. -/
def give (o : Output) (s : State) : State := { s with out := s.out ++ [o] }

/-- `emit(x0, y0, x1, y1, i)`: append the record to `G.VEC` and call the vector sink once (R364). -/
def emit (v : VecRec) (s : State) : State := (s.mapG fun g => { g with vec := g.vec ++ [v] }).give (.line v)

/-- `PsgProtocol()` on `C.ORB[4:3]` (R375). -/
def psgProtocol (s : State) : State :=
  match (psgControl s.c.orb).toNat with
  | 2 => if s.g.sel = 14#4 then s else s.mapSyn (Synth.write s.cfg s.g.sel s.c.ora)
  | 3 => if s.c.ora.extractLsb' 4 4 = 0#4 then s.mapG (fun g => { g with sel := s.c.ora.extractLsb' 0 4 }) else s
  | _ => s

/-- `HookWritePA(d)` (R371). -/
def hookWritePA (d : Byte) (s : State) : State :=
  let s1 := s.psgProtocol
  s1.mapB (Beam.setX s1.c.orb (d ^^^ 0x80#8))

/-- `HookWritePB(d)` (R372): the hook reads the byte from `C.ORB`, where it already is. -/
def hookWritePB (s : State) : State :=
  let s1 := s.psgProtocol
  s1.mapB (Beam.sampleUpdate s1.c.orb)

/-- `HookReadPA()`: the byte a device drives onto port A, if one does (R373). -/
def hookReadPA (s : State) : Option Byte := if psgControl s.c.orb = 1#2 then some (s.syn.reg s.g.sel) else none

/-- `HookReadPB()`: the compare bit at bit 5 (R374). -/
def hookReadPB (s : State) : Byte := if s.b.cmp then 0x20#8 else 0#8

/-- What a read of port A returns: the driven byte, or the output register (R146, R160). -/
def portA (s : State) : Byte := s.hookReadPA.getD s.c.ora

/-- What a read of port B returns (R145). -/
def portB (s : State) : Byte := s.c.portB s.cfg s.hookReadPB

/-- The maskable interrupt line, `C.IFR[7]` (R361, R397). -/
def irqLine (s : State) : Bool := s.c.ifr.getLsbD 7

/-- The state after a Beam Engine step's integration, with its record emitted; the guard is not yet applied (R320). -/
def beamAdvance (s : State) : State :=
  let t := s.b.advance s.cfg s.c
  let s1 := s.mapB fun _ => t.1
  match t.2 with
  | none => s1
  | some v => s1.emit v

/-- `FrameAccount(n)`, with the flush (R363). -/
def frameAccount (n : Byte) (s : State) : State :=
  let f := s.g.frame - (n.toNat : Int)
  if f < 0 then
    (s.give (.frameFlush s.g.vec)).mapG fun g => { g with frame := s.cfg.frameCycles, vec := [] }
  else s.mapG fun g => { g with frame := f }

end State

/-- Go on from a next state; a fault or a refusal ends the step (R392). -/
def andThen (r : Res) (f : State → Res) : Res :=
  match r with
  | .next s => f s
  | .fault e => .fault e
  | .refused e => .refused e

/-- `BeamStep()` (R320), with the position guard (R335). -/
def beamStep (s : State) : Res :=
  if s.beamAdvance.b.beyondLimit s.cfg then .fault .beamPositionBeyondPosLimit else .next s.beamAdvance

/-- `Cycle()`: Phase A, Beam Engine step, Phase B (R360). -/
def cycle (s : State) : Res :=
  andThen (beamStep (s.mapC Controller.phaseA)) fun t => .next (t.mapC Controller.phaseB)

/-- `repeat n times: Cycle()` (R362). -/
def cycles : Nat → State → Res
  | 0, s => .next s
  | n + 1, s => andThen (cycle s) (cycles n)

end Sys2Proof.Machine
end

