-- ==== Sys2Proof/Machine/CtrlRead.lean ====
section
/-! DEFINITION. The 16 reads of the Controller window (40_controller_bus.md section 2). The byte read is given to the
surroundings as an `Output.byte`. -/

namespace Sys2Proof.Machine

/-- `CRD 0`: port B (R145). -/
def execCrd0 (s : State) : Res :=
  .next (s.give (.byte s.portB))

/-- `CRD 1`: port A with handshake: line 1 may go low, then the port is read (R146). -/
def execCrd1 (s : State) : Res :=
  .next ((s.mapC (Controller.line1Access s.cfg)).give (.byte s.portA))

/-- `CRD 2`: direction register B (R147). -/
def execCrd2 (s : State) : Res :=
  .next (s.give (.byte s.c.ddrb))

/-- `CRD 3`: direction register A (R148). -/
def execCrd3 (s : State) : Res :=
  .next (s.give (.byte s.c.ddra))

/-- `CRD 4`: timer-1 counter low: the counter before the read's effects (R149). -/
def execCrd4 (s : State) : Res :=
  .next ((s.mapC Controller.t1Stop).give (.byte (counterLow s.c.t1c)))

/-- `CRD 5`: timer-1 counter high (R150). -/
def execCrd5 (s : State) : Res :=
  .next (s.give (.byte (counterHigh s.c.t1c)))

/-- `CRD 6`: timer-1 low latch (R151). -/
def execCrd6 (s : State) : Res :=
  .next (s.give (.byte s.c.t1ll))

/-- `CRD 7`: timer-1 high latch (R152). -/
def execCrd7 (s : State) : Res :=
  .next (s.give (.byte s.c.t1lh))

/-- `CRD 8`: timer-2 counter low: the counter before the read's effects (R153). -/
def execCrd8 (s : State) : Res :=
  .next ((s.mapC Controller.t2Stop).give (.byte (counterLow s.c.t2c)))

/-- `CRD 9`: timer-2 counter high: the counter, not the latch (R154). -/
def execCrd9 (s : State) : Res :=
  .next (s.give (.byte (counterHigh s.c.t2c)))

/-- `CRD A`: shift register: the value, and the shift restarts (R155). -/
def execCrdA (s : State) : Res :=
  .next ((s.mapC Controller.srAccess).give (.byte s.c.sr))

/-- `CRD B`: auxiliary control register (R156). -/
def execCrdB (s : State) : Res :=
  .next (s.give (.byte s.c.acr))

/-- `CRD C`: peripheral control register (R157). -/
def execCrdC (s : State) : Res :=
  .next (s.give (.byte s.c.pcr))

/-- `CRD D`: interrupt flags, bit 7 the aggregate (R158). -/
def execCrdD (s : State) : Res :=
  .next (s.give (.byte s.c.ifr))

/-- `CRD E`: interrupt enables, bit 7 read as 1 (R159). -/
def execCrdE (s : State) : Res :=
  .next (s.give (.byte (0x80#8 ||| s.c.ier.setWidth 8)))

/-- `CRD F`: port A without handshake (R160). -/
def execCrdF (s : State) : Res :=
  .next (s.give (.byte s.portA))

end Sys2Proof.Machine
end

