-- ==== Sys2Proof/Machine/CtrlWrite.lean ====
section
/-! DEFINITION. The 16 writes of the Controller window (40_controller_bus.md section 3). -/

namespace Sys2Proof.Machine

/-- `CWR 0, d`: port B: the register, the hook, line 2 (R161). -/
def execCwr0 (d : Byte) (s : State) : Res :=
  .next (((s.mapC fun c => { c with orb := d }).hookWritePB).mapC (Controller.line2Access s.cfg))

/-- `CWR 1, d`: port A with handshake: line 1, the register, the hook (R162). -/
def execCwr1 (d : Byte) (s : State) : Res :=
  .next (((s.mapC (Controller.line1Access s.cfg)).mapC fun c => { c with ora := d }).hookWritePA d)

/-- `CWR 2, d`: direction register B (R163). -/
def execCwr2 (d : Byte) (s : State) : Res :=
  .next (s.mapC fun c => { c with ddrb := d })

/-- `CWR 3, d`: direction register A (R164). -/
def execCwr3 (d : Byte) (s : State) : Res :=
  .next (s.mapC fun c => { c with ddra := d })

/-- `CWR 4, d`: timer-1 counter low: the low latch (R165). -/
def execCwr4 (d : Byte) (s : State) : Res :=
  .next (s.mapC fun c => { c with t1ll := d })

/-- `CWR 5, d`: timer-1 counter high: the high latch, then timer 1 loads and starts (R166). -/
def execCwr5 (d : Byte) (s : State) : Res :=
  .next (s.mapC fun c => { c with t1lh := d }.t1Start)

/-- `CWR 6, d`: timer-1 low latch (R167). -/
def execCwr6 (d : Byte) (s : State) : Res :=
  .next (s.mapC fun c => { c with t1ll := d })

/-- `CWR 7, d`: timer-1 high latch, which starts timer 1 when `T1_LATCH_HI_WRITE_STARTS` (90_conflicts.md C1) (R168). -/
def execCwr7 (d : Byte) (s : State) : Res :=
  .next (s.mapC (Controller.writeT1LatchHigh s.cfg d))

/-- `CWR 8, d`: timer-2 low latch (R169). -/
def execCwr8 (d : Byte) (s : State) : Res :=
  .next (s.mapC fun c => { c with t2ll := d })

/-- `CWR 9, d`: timer-2 high byte: timer 2 loads and starts (R170). -/
def execCwr9 (d : Byte) (s : State) : Res :=
  .next (s.mapC (Controller.t2Start d))

/-- `CWR A, d`: shift register: the value, and the shift restarts (R171). -/
def execCwrA (d : Byte) (s : State) : Res :=
  .next (s.mapC fun c => { c with sr := d }.srAccess)

/-- `CWR B, d`: auxiliary control register (R172). -/
def execCwrB (d : Byte) (s : State) : Res :=
  .next (s.mapC fun c => { c with acr := d })

/-- `CWR C, d`: peripheral control register: the register and both line levels (R173). -/
def execCwrC (d : Byte) (s : State) : Res :=
  .next (s.mapC (Controller.writePcr d))

/-- `CWR D, d`: interrupt flags: each flag named by `d[6:0]` is cleared (R174). -/
def execCwrD (d : Byte) (s : State) : Res :=
  .next (s.mapC (clearFlags (d &&& 0x7F#8)))

/-- `CWR E, d`: interrupt enables: set or cleared by `d[7]` (R175). -/
def execCwrE (d : Byte) (s : State) : Res :=
  .next (s.mapC (writeEnables d))

/-- `CWR F, d`: port A without handshake: the register, the hook (R176). -/
def execCwrF (d : Byte) (s : State) : Res :=
  .next ((s.mapC fun c => { c with ora := d }).hookWritePA d)

end Sys2Proof.Machine
end

