-- ==== Sys2Proof/Machine/HostInputs.lean ====
section
/-! DEFINITION. The host's requests: reset (70_reset_and_hazards.md R420), joystick (44_beam_engine.md R337) and buttons
(45_scheduler.md R376). -/

namespace Sys2Proof.Machine

/-- `RESET`: every state element of the block takes its reset value; no hook, sink or callback is called, and the model's own
`cfg`, `out` and `pending`, which are outside the block, stay (R420; assumption logs 36, 41). -/
def execReset (s : State) : Res :=
  .next { s with
    c := Controller.atReset, syn := Synth.resetProcedure s.cfg, b := Beam.atReset s.cfg, g := Glue.atReset s.cfg }

/-- `JOY k, v`: `B.J[k] <- v` and nothing else (R337). -/
def execJoy (k : BitVec 2) (v : Byte) (s : State) : Res :=
  .next (s.mapB (Beam.setAxis k v))

/-- `PSGIN v`: `S.R[14] <- v` and nothing else (R376). -/
def execPsgin (v : Byte) (s : State) : Res :=
  .next (s.mapSyn (Synth.input v))

end Sys2Proof.Machine
end

