-- ==== Sys2Proof/Machine/Steps.lean ====
section
/-! DEFINITION. The clocked steps: Controller phases, Beam Engine step, cycle, instruction boundaries
(41_controller_cycle.md, 44_beam_engine.md, 45_scheduler.md), and the Synthesizer's tick and sample
(43_synth_generators.md). -/

namespace Sys2Proof.Machine

/-- `PHA`: Controller Phase A (R200). -/
def execPha (s : State) : Res :=
  .next (s.mapC Controller.phaseA)

/-- `BEAM`: one Beam Engine step (R320). -/
def execBeam (s : State) : Res :=
  beamStep s

/-- `PHB`: Controller Phase B (R214). -/
def execPhb (s : State) : Res :=
  .next (s.mapC Controller.phaseB)

/-- `CYC`: one cycle (R360). -/
def execCyc (s : State) : Res :=
  cycle s

/-- `IBEG`: hand the interrupt lines to the CPU; the non-maskable line is constantly 0 (R361). -/
def execIbeg (s : State) : Res :=
  .next (s.give (.irqLines s.irqLine false))

/-- `IEND n`: n cycles, then the frame accounting (R362). -/
def execIend (n : Byte) (s : State) : Res :=
  andThen (cycles n.toNat s) fun t => .next (t.frameAccount n)

/-- `TICK`: one generator tick (R280). -/
def execTick (s : State) : Res :=
  .next (s.mapSyn (Synth.tick s.cfg))

/-- `SAMPLE`: the ticks of one audio sample, and the mixed value (R287). -/
def execSample (s : State) : Res :=
  .next ((s.mapSyn (Synth.sampleTicks s.cfg)).give (.sample (s.syn.sampleTicks s.cfg).mixValue))

end Sys2Proof.Machine
end

