-- ==== Sys2Proof/Machine/SynthWindow.lean ====
section
/-! DEFINITION. The Synthesizer window as direct requests: 16 writes and the read (42_synth_registers.md). -/

namespace Sys2Proof.Machine

/-- `SRD r`: the raw byte (R260). -/
def execSrd (r : BitVec 4) (s : State) : Res :=
  .next (s.give (.byte (s.syn.reg r)))

/-- `SWR 0, d`: voice A period fine (R240, R242). -/
def execSwr0 (d : Byte) (s : State) : Res :=
  .next (s.mapSyn (Synth.write s.cfg 0#4 d))

/-- `SWR 1, d`: voice A period coarse (R240, R243). -/
def execSwr1 (d : Byte) (s : State) : Res :=
  .next (s.mapSyn (Synth.write s.cfg 1#4 d))

/-- `SWR 2, d`: voice B period fine (R240, R244). -/
def execSwr2 (d : Byte) (s : State) : Res :=
  .next (s.mapSyn (Synth.write s.cfg 2#4 d))

/-- `SWR 3, d`: voice B period coarse (R240, R245). -/
def execSwr3 (d : Byte) (s : State) : Res :=
  .next (s.mapSyn (Synth.write s.cfg 3#4 d))

/-- `SWR 4, d`: voice C period fine (R240, R246). -/
def execSwr4 (d : Byte) (s : State) : Res :=
  .next (s.mapSyn (Synth.write s.cfg 4#4 d))

/-- `SWR 5, d`: voice C period coarse (R240, R247). -/
def execSwr5 (d : Byte) (s : State) : Res :=
  .next (s.mapSyn (Synth.write s.cfg 5#4 d))

/-- `SWR 6, d`: noise period (R240, R248). -/
def execSwr6 (d : Byte) (s : State) : Res :=
  .next (s.mapSyn (Synth.write s.cfg 6#4 d))

/-- `SWR 7, d`: mixer enable mask (R240, R249). -/
def execSwr7 (d : Byte) (s : State) : Res :=
  .next (s.mapSyn (Synth.write s.cfg 7#4 d))

/-- `SWR 8, d`: voice A volume (R240, R251). -/
def execSwr8 (d : Byte) (s : State) : Res :=
  .next (s.mapSyn (Synth.write s.cfg 8#4 d))

/-- `SWR 9, d`: voice B volume (R240, R252). -/
def execSwr9 (d : Byte) (s : State) : Res :=
  .next (s.mapSyn (Synth.write s.cfg 9#4 d))

/-- `SWR A, d`: voice C volume (R240, R253). -/
def execSwrA (d : Byte) (s : State) : Res :=
  .next (s.mapSyn (Synth.write s.cfg 10#4 d))

/-- `SWR B, d`: envelope period fine (R240, R255). -/
def execSwrB (d : Byte) (s : State) : Res :=
  .next (s.mapSyn (Synth.write s.cfg 11#4 d))

/-- `SWR C, d`: envelope period coarse (R240, R256). -/
def execSwrC (d : Byte) (s : State) : Res :=
  .next (s.mapSyn (Synth.write s.cfg 12#4 d))

/-- `SWR D, d`: envelope shape (R240, R257). -/
def execSwrD (d : Byte) (s : State) : Res :=
  .next (s.mapSyn (Synth.write s.cfg 13#4 d))

/-- `SWR E, d`: I/O latch A (R240, R258). -/
def execSwrE (d : Byte) (s : State) : Res :=
  .next (s.mapSyn (Synth.write s.cfg 14#4 d))

/-- `SWR F, d`: I/O latch B (R240, R259). -/
def execSwrF (d : Byte) (s : State) : Res :=
  .next (s.mapSyn (Synth.write s.cfg 15#4 d))

end Sys2Proof.Machine
end

