-- ==== Sys2Proof/Machine/Dispatch.lean ====
section
/-! DEFINITION. One arm per request: each calls its meaning. -/

namespace Sys2Proof.Machine

def exec (i : Instr) (s : State) : Host.Outcome State Fault Refusal :=
  match i with
  | .crd0 => Sys2Proof.Machine.execCrd0 s
  | .crd1 => Sys2Proof.Machine.execCrd1 s
  | .crd2 => Sys2Proof.Machine.execCrd2 s
  | .crd3 => Sys2Proof.Machine.execCrd3 s
  | .crd4 => Sys2Proof.Machine.execCrd4 s
  | .crd5 => Sys2Proof.Machine.execCrd5 s
  | .crd6 => Sys2Proof.Machine.execCrd6 s
  | .crd7 => Sys2Proof.Machine.execCrd7 s
  | .crd8 => Sys2Proof.Machine.execCrd8 s
  | .crd9 => Sys2Proof.Machine.execCrd9 s
  | .crdA => Sys2Proof.Machine.execCrdA s
  | .crdB => Sys2Proof.Machine.execCrdB s
  | .crdC => Sys2Proof.Machine.execCrdC s
  | .crdD => Sys2Proof.Machine.execCrdD s
  | .crdE => Sys2Proof.Machine.execCrdE s
  | .crdF => Sys2Proof.Machine.execCrdF s
  | .cwr0 d => Sys2Proof.Machine.execCwr0 d s
  | .cwr1 d => Sys2Proof.Machine.execCwr1 d s
  | .cwr2 d => Sys2Proof.Machine.execCwr2 d s
  | .cwr3 d => Sys2Proof.Machine.execCwr3 d s
  | .cwr4 d => Sys2Proof.Machine.execCwr4 d s
  | .cwr5 d => Sys2Proof.Machine.execCwr5 d s
  | .cwr6 d => Sys2Proof.Machine.execCwr6 d s
  | .cwr7 d => Sys2Proof.Machine.execCwr7 d s
  | .cwr8 d => Sys2Proof.Machine.execCwr8 d s
  | .cwr9 d => Sys2Proof.Machine.execCwr9 d s
  | .cwrA d => Sys2Proof.Machine.execCwrA d s
  | .cwrB d => Sys2Proof.Machine.execCwrB d s
  | .cwrC d => Sys2Proof.Machine.execCwrC d s
  | .cwrD d => Sys2Proof.Machine.execCwrD d s
  | .cwrE d => Sys2Proof.Machine.execCwrE d s
  | .cwrF d => Sys2Proof.Machine.execCwrF d s
  | .srd r => Sys2Proof.Machine.execSrd r s
  | .swr0 d => Sys2Proof.Machine.execSwr0 d s
  | .swr1 d => Sys2Proof.Machine.execSwr1 d s
  | .swr2 d => Sys2Proof.Machine.execSwr2 d s
  | .swr3 d => Sys2Proof.Machine.execSwr3 d s
  | .swr4 d => Sys2Proof.Machine.execSwr4 d s
  | .swr5 d => Sys2Proof.Machine.execSwr5 d s
  | .swr6 d => Sys2Proof.Machine.execSwr6 d s
  | .swr7 d => Sys2Proof.Machine.execSwr7 d s
  | .swr8 d => Sys2Proof.Machine.execSwr8 d s
  | .swr9 d => Sys2Proof.Machine.execSwr9 d s
  | .swrA d => Sys2Proof.Machine.execSwrA d s
  | .swrB d => Sys2Proof.Machine.execSwrB d s
  | .swrC d => Sys2Proof.Machine.execSwrC d s
  | .swrD d => Sys2Proof.Machine.execSwrD d s
  | .swrE d => Sys2Proof.Machine.execSwrE d s
  | .swrF d => Sys2Proof.Machine.execSwrF d s
  | .pha => Sys2Proof.Machine.execPha s
  | .beam => Sys2Proof.Machine.execBeam s
  | .phb => Sys2Proof.Machine.execPhb s
  | .cyc => Sys2Proof.Machine.execCyc s
  | .ibeg => Sys2Proof.Machine.execIbeg s
  | .iend n => Sys2Proof.Machine.execIend n s
  | .tick => Sys2Proof.Machine.execTick s
  | .sample => Sys2Proof.Machine.execSample s
  | .reset => Sys2Proof.Machine.execReset s
  | .joy k v => Sys2Proof.Machine.execJoy k v s
  | .psgin v => Sys2Proof.Machine.execPsgin v s

end Sys2Proof.Machine
end

