-- ==== Sys2Proof/Machine/Step.lean ====
section
/-! DEFINITION. One step: serve the next issue of the request stream (10_state.md R21, 20_memory.md R90, R91). -/

namespace Sys2Proof.Machine

/-- Take the next issue and serve it: a request word is decoded and run, a reserved word is refused by its clause of R109,
two unserialised requests are refused (R91). With nothing issued the block does not move (60_exceptions.md R408; assumption
log 1). -/
def step (s : State) : Host.Outcome State Fault Refusal :=
  match s.pending with
  | [] => .next s
  | .together _ _ :: _ => .refused .overlappingAgentSteps
  | .one w :: rest =>
    match decode w with
    | .error why => .refused (.reservedRequest why)
    | .ok i => exec i { s with pending := rest }

/-- The state with one opcode-table row's word issued next, so that the very next step serves it (assumption log 2). -/
def State.withFetchWord (s : State) (nbits w : Nat) : State :=
  { s with pending := .one (BitVec.ofNat 16 (w % 2 ^ nbits)) :: s.pending }

end Sys2Proof.Machine
end

