-- ==== Sys2Proof/Machine/Bus.lean ====
section
/-! DEFINITION. The CPU bus side of the Controller window (20_memory.md R82, R84, R85; 00_scope.md R11): which request a CPU
byte access becomes. Which addresses the bus collaborator routes to the window is OPEN (Config.lean). DESIGN CHOICE: no file of
spec/ gives the width of a CPU address, so an address is a natural number here and no width is settled (assumption log 17). -/

namespace Sys2Proof.Machine

/-- The window offset of a CPU address: `addr[3:0]`, its low 4 bits (R81, R82). -/
def ctrlOffset (addr : Nat) : BitVec 4 := BitVec.ofNat 4 addr

/-- The collaborator routes the address to the Controller window: the 16 addresses from `CTRL_BASE`, and every further address
it repeats the window at (R82; assumption log 17). -/
def inCtrlWindow (addr : Nat) : Bool := addr / 16 == Config.ctrlBlock || Config.ctrlMirror addr

/-- `MemRead(addr, 1)`: the Controller read it is routed to, none outside the window (R11, R82). -/
def memRead (addr : Nat) : Option Instr :=
  if inCtrlWindow addr then some (ctrlReadInstr (ctrlOffset addr)) else none

/-- `MemWrite(addr, 1, v)` (R11, R82). -/
def memWrite (addr : Nat) (v : Byte) : Option Instr :=
  if inCtrlWindow addr then some (ctrlWriteInstr (ctrlOffset addr) v) else none

end Sys2Proof.Machine
end

