-- ==== Sys2Proof/Machine/Pseudo.lean ====
section
/-! DEFINITION. Request sequences the spec names: the pseudo-instructions of 30_encoding.md R121 and the frame loop of
45_scheduler.md R365. They are lists of requests; none is an instruction of its own. -/

namespace Sys2Proof.Machine

/-- `CYC*n` (R121). -/
def cycTimes (n : Nat) : List Instr := List.replicate n .cyc

/-- The offsets k that `WR16 C.k, v` takes: 4, 6, 8 (R121). -/
inductive TimerPair where
  | counter1
  | latch1
  | counter2
  deriving DecidableEq, Repr

/-- `WR16 C.k, v`: the low byte first (R121). -/
def wr16 (k : TimerPair) (v : Word) : List Instr :=
  let lo : Byte := v.extractLsb' 0 8
  let hi : Byte := v.extractLsb' 8 8
  match k with
  | .counter1 => [.cwr4 lo, .cwr5 hi]
  | .latch1 => [.cwr6 lo, .cwr7 hi]
  | .counter2 => [.cwr8 lo, .cwr9 hi]

/-- `PSGW r, v` (R121). -/
def psgW (r v : Byte) : List Instr := [.cwr1 r, .cwr0 0x19, .cwr0 0x01, .cwr1 v, .cwr0 0x11, .cwr0 0x01]

/-- `PSGR r` (R121). -/
def psgR (r : Byte) : List Instr := [.cwr1 r, .cwr0 0x19, .cwr0 0x01, .cwr0 0x09, .crdF, .cwr0 0x01]

/-- A byte access of the CPU to the Controller window (R100). -/
inductive Access where
  | read (k : BitVec 4)
  | write (k : BitVec 4) (d : Byte)
  deriving DecidableEq, Repr

/-- The request of an access (R103, R104). -/
def Access.request : Access → Instr
  | .read k => ctrlReadInstr k
  | .write k d => ctrlWriteInstr k d

/-- What the block sees of one CPU instruction: its accesses in order and its cycles (R361; assumption log 38). -/
structure CpuInstr where
  accesses : List Access
  cycles : Byte
  deriving DecidableEq, Repr

/-- The requests of one CPU instruction: the boundary, the accesses, the cycles (R361, R362). -/
def CpuInstr.requests (i : CpuInstr) : List Instr := .ibeg :: (i.accesses.map Access.request ++ [.iend i.cycles])

/-- `Run(budget)` over the instructions the CPU executes: one after another while the budget is positive (R365). -/
def frameLoop : Int → List CpuInstr → List Instr
  | _, [] => []
  | budget, i :: is => if 0 < budget then i.requests ++ frameLoop (budget - (i.cycles.toNat : Int)) is else []

/-- Requests served one after another (R90). -/
def execAll : List Instr → State → Res
  | [], s => .next s
  | i :: is, s => andThen (exec i s) (execAll is)

end Sys2Proof.Machine
end

