-- ==== Sys2Proof/Safety.lean ====
section
/-! DEFINITION. What claims about safe runs are stated in: the invariants that hold between operations (10_state.md R32,
R50, R52 to R56, R66; 60_exceptions.md R394) and completion of a step. -/

namespace Sys2Proof.Machine

/-- `C.SRCNT` in 0..8, the aggregate bit (R32, R66), and the flags that nothing sets (R29, R394). -/
abbrev Controller.Inv (c : Controller) : Prop :=
  c.srcnt ≤ 8 ∧ c.ifr.getLsbD 7 = irqAggregate c.ifr c.ier ∧ c.ifr &&& 0x1B#8 = 0#8

/-- What 10_state.md R60 and 00_scope.md R7 ask of the parameters: the table's entries 0 and 1 are silent and entries 1..31
non-decreasing, so entry 31 is full scale; the seed is not zero. DESIGN CHOICE (assumption logs 14 and 41): R60's clause that
entries 2..31 form "a geometric/logarithmic ramp to 4095 or equivalent full scale" gives another table neither a ratio nor a
full scale, and the model asks nothing for it, so entry 31 is free and even an all-zero table is valid. The centre lies inside
the position limit (DESIGN CHOICE: R7 does not say so of another instantiation; assumption log 41). -/
abbrev Params.Valid (p : Params) : Prop :=
  p.volTable[0] = 0 ∧ p.volTable[1] = 0
  ∧ (∀ i j : Fin 32, 1 ≤ i.val → i.val ≤ j.val → p.volTable[i.val] ≤ p.volTable[j.val])
  ∧ p.rngSeed ≠ 0#17
  ∧ p.maxX / 2 < p.posLimit ∧ p.maxY / 2 < p.posLimit

/-- A voice's period and counter in range and its volume at most full scale `top` (R42, R60, R66). -/
abbrev Voice.Inv (top : Nat) (v : Voice) : Prop := 1 ≤ v.per ∧ v.per ≤ 4095 ∧ 1 ≤ v.cnt ∧ v.vol ≤ top

/-- The ranges of R66, and the volume's of R44. `S.Step` in 0..31 holds by its type. -/
abbrev Synth.Inv (p : Params) (s : Synth) : Prop :=
  s.va.Inv p.volTable[31] ∧ s.vb.Inv p.volTable[31] ∧ s.vc.Inv p.volTable[31]
  ∧ (1 ≤ s.perN ∧ s.perN ≤ 31 ∧ 1 ≤ s.cntN)
  ∧ (1 ≤ s.perE ∧ s.perE ≤ 131070 ∧ 1 ≤ s.cntE)
  ∧ (s.attack = 0#5 ∨ s.attack = 31#5) ∧ s.rng ≠ 0#17 ∧ s.volE ≤ p.volTable[31]

/-- A voice's derived fields are those its registers give (R42, R112, R113). -/
abbrev Voice.Derived (p : Params) (fine coarse volume : Byte) (volE : Nat) (v : Voice) : Prop :=
  v.per = tonePeriod fine coarse ∧ v.envSel = volEnvSelect volume
  ∧ v.vol = if volEnvSelect volume then volE else fixedVolume p volume

/-- Every derived element of the Synthesizer is the one its raw registers, its step and its attack mask give
(10_state.md R40: "Derived state below is recomputed from the raw registers by the write rules"). -/
abbrev Synth.Derived (p : Params) (s : Synth) : Prop :=
  s.va.Derived p (s.reg 0#4) (s.reg 1#4) (s.reg 8#4) s.volE
  ∧ s.vb.Derived p (s.reg 2#4) (s.reg 3#4) (s.reg 9#4) s.volE
  ∧ s.vc.Derived p (s.reg 4#4) (s.reg 5#4) (s.reg 10#4) s.volE
  ∧ s.perN = noisePeriod (s.reg 6#4) ∧ s.perE = envPeriod (s.reg 11#4) (s.reg 12#4)
  ∧ s.hold = (decodeShape (s.reg 13#4)).hold ∧ s.alt = (decodeShape (s.reg 13#4)).alt
  ∧ s.volE = p.vol (s.step ^^^ s.attack)

/-- Intensities in 0..127 (R50, R55), the derived bit and deltas (R52, R53), the position inside the limit (R335), and both
ends of the vector in progress inside the display (R329, R333). -/
abbrev Beam.Inv (p : Params) (b : Beam) : Prop :=
  b.zsh.toNat ≤ 127 ∧ b.vi.toNat ≤ 127
  ∧ b.cmp = decide (b.xsh.toNat < b.jsh.toNat)
  ∧ b.dx = (b.xsh.toNat : Int) - (b.rsh.toNat : Int) ∧ b.dy = (b.rsh.toNat : Int) - (b.ysh.toNat : Int)
  ∧ b.beyondLimit p = false
  ∧ (b.tr = true → inBounds p b.x0 b.y0 = true ∧ inBounds p b.x1 b.y1 = true)

/-- A vector record lies inside the display and its intensity is in 0..127 (R56). -/
abbrev VecRec.Inv (p : Params) (v : VecRec) : Prop := inBounds p v.x0 v.y0 = true ∧ inBounds p v.x1 v.y1 = true ∧ v.i.toNat ≤ 127

/-- The frame counter between operations (R58, R363) and the records of the frame (R56, R59). -/
abbrev Glue.Inv (p : Params) (g : Glue) : Prop := 0 ≤ g.frame ∧ g.frame ≤ p.frameCycles ∧ ∀ v ∈ g.vec, v.Inv p

/-- What holds between any two operations, under the state's own configuration. -/
abbrev State.Inv (s : State) : Prop :=
  s.c.Inv ∧ s.syn.Inv s.cfg ∧ s.syn.Derived s.cfg ∧ s.b.Inv s.cfg ∧ s.g.Inv s.cfg ∧ s.cfg.Valid

/-- The next step neither faults nor is refused. -/
def State.Safe (s : State) : Prop := ∃ t, step s = .next t

end Sys2Proof.Machine
end

