-- ==== Sys2Proof/Certificates/Slice0/Obligations.lean ====
section
/-! DEFINITION. The statements for the provers, each with the rule or the section of spec/ it formalises. Wherever the spec
gives a value it is written out with the spec's own arithmetic (bytes as numbers, fields as quotients and remainders), not
with the model's operations. A parameter of 00_scope.md R7 with a value is a field of the state's configuration `cfg` and each statement
holds for every value of it (assumption log 41); R7's own values are those of `State.reset`
(`Obligations.ResetStateMeetsTheInvariant`). -/

namespace Sys2Proof.Claim

open Sys2Proof.Machine

/-! ### Vocabulary of the statements -/

/-- Bit 7 of a flag byte is the aggregate of its other bits and the enables (10_state.md R32). -/
def aggregated (f : Byte) (e : BitVec 7) : Prop :=
  f.getLsbD 7 = true ↔ ∃ i, i < 7 ∧ f.getLsbD i = true ∧ e.getLsbD i = true

/-- `f` is the flag byte of `c` with flag `n` down, the other flags as they were and the aggregate recomputed. -/
def flagFell (n : Nat) (c : Controller) (f : Byte) : Prop :=
  f.getLsbD n = false ∧ (∀ i, i < 7 → i ≠ n → f.getLsbD i = c.ifr.getLsbD i) ∧ aggregated f c.ier

/-- `(high << 8) | low` (30_encoding.md R110). -/
def pair (high low : Byte) : Word := BitVec.ofNat 16 (256 * high.toNat + low.toNat)

/-- Line 1's mode field, `C.PCR[3:1]` (10_state.md R28, D9). -/
def line1 (c : Controller) : Nat := c.pcr.toNat / 2 % 8

/-- Line 2's mode field, `C.PCR[7:5]` (10_state.md R28, D9). -/
def line2 (c : Controller) : Nat := c.pcr.toNat / 32

/-- A mode in which a port access drives the line low, one of `HS_LOW_MODES` (40_controller_bus.md R141, D9). -/
abbrev drivesLow (p : Params) (f : Nat) : Prop := BitVec.ofNat 3 f ∈ p.hsLowModes

/-- The byte a port-A read returns: the selected Synthesizer register when `C.ORB[4:3] = 0b01`, else `C.ORA`
(40_controller_bus.md R146, R160; 45_scheduler.md R373; D11, D26). -/
def portAByte (s : State) : Byte := if s.c.orb.toNat / 8 % 4 = 1 then s.syn.reg s.g.sel else s.c.ora

/-- The register-select protocol on `C.ORB[4:3]` (45_scheduler.md R375, D26). -/
def protocol (s : State) : State :=
  if s.c.orb.toNat / 8 % 4 = 2 ∧ s.g.sel ≠ 14#4 then { s with syn := s.syn.write s.cfg s.g.sel s.c.ora }
  else if s.c.orb.toNat / 8 % 4 = 3 ∧ s.c.ora.toNat < 16 then
    { s with g := { s.g with sel := BitVec.ofNat 4 s.c.ora.toNat } }
  else s

/-- The sample update under a port-B byte (44_beam_engine.md R321 to R324, D27): the joystick selection, the sample-and-hold
that latches X when bit 0 is 0, then the compare bit and the deltas. -/
def sampled (orb : Byte) (b : Beam) : Beam :=
  let m := orb.toNat / 2 % 4
  let y := if orb.toNat % 2 = 0 ∧ m = 0 then b.xsh else b.ysh
  let r := if orb.toNat % 2 = 0 ∧ m = 1 then b.xsh else b.rsh
  let z := if orb.toNat % 2 = 0 ∧ m = 2 then BitVec.ofNat 8 (b.xsh.toNat - 128) else b.zsh
  let j := b.j[orb.toNat / 2 % 4]'(Nat.mod_lt _ (by decide))
  { b with
    ysh := y, rsh := r, zsh := z, jsh := j, cmp := decide (b.xsh.toNat < j.toNat)
    dx := (b.xsh.toNat : Int) - (r.toNat : Int), dy := (r.toNat : Int) - (y.toNat : Int) }

/-- The ramp signal (44_beam_engine.md R327, D27). -/
def rampSignal (c : Controller) : Bool := if c.acr.toNat / 128 = 1 then c.t1pb7 else decide (c.orb.toNat / 128 = 1)

/-- The velocity of a Beam Engine step, from the state before it (44_beam_engine.md R324, R326, R328; D27, D28). -/
def velocity (p : Params) (c : Controller) (b : Beam) : Int × Int :=
  if c.ca2 = false then ((p.maxX / 2 : Nat) - b.x, (p.maxY / 2 : Nat) - b.y)
  else if rampSignal c = false then ((sampled c.orb b).dx, (sampled c.orb b).dy)
  else (0, 0)

/-- The blanking signal, "beam on" (44_beam_engine.md R325, D13, D27). -/
def beamOn (c : Controller) : Bool := if c.acr.toNat / 16 % 2 = 1 then c.cb2s else c.cb2h

/-- A position inside the display, half-open bounds (44_beam_engine.md R334, D28). -/
abbrev inside (p : Params) (x y : Int) : Prop := 0 ≤ x ∧ x < p.maxX ∧ 0 ≤ y ∧ y < p.maxY

/-! ### One Phase A, all parts at once (41_controller_cycle.md) -/

/-- Timer 1 wraps in this Phase A (R201). -/
abbrev t1Wraps (c : Controller) : Prop := c.t1on = true ∧ c.t1c.toNat = 0

/-- Timer 1 is in free-run mode, `C.ACR[6] = 1` (R201, D8). -/
abbrev t1Free (c : Controller) : Prop := c.acr.toNat / 64 % 2 = 1

/-- Timer 1 raises its flag (R201, D12). -/
abbrev t1Fires (c : Controller) : Prop := t1Wraps c ∧ (t1Free c ∨ c.t1arm = true)

/-- Timer 2 counts (R202, D41). -/
abbrev t2Counts (c : Controller) : Prop := c.t2on = true ∧ c.acr.toNat / 32 % 2 = 0

/-- Timer 2 raises its flag (R202). -/
abbrev t2Fires (c : Controller) : Prop := t2Counts c ∧ c.t2c.toNat = 0 ∧ c.t2arm = true

/-- The shift pulse (R203, D14). -/
abbrev pulse (c : Controller) : Prop := c.srdiv.toNat = 0 ∧ c.srph = true

/-- The shift mode, `C.ACR[4:2]` (30_encoding.md R115). -/
abbrev mode (c : Controller) : Nat := c.acr.toNat / 4 % 8

/-- The shift register moves by one bit (R204 to R212, D13). -/
abbrev shifts (c : Controller) : Prop :=
  c.srcnt < 8 ∧ (mode c = 2 ∨ mode c = 6 ∨ ((mode c = 1 ∨ mode c = 4 ∨ mode c = 5) ∧ pulse c))

/-- The bit is counted: in every shifting mode but the free-running one (R209, D13). -/
abbrev counted (c : Controller) : Prop := shifts c ∧ mode c ≠ 4

/-- The shift register raises its flag: the eighth bit (R213). -/
abbrev srFires (c : Controller) : Prop := counted c ∧ c.srcnt = 7

/-- Phase A raises one of the three flags that have a source (R201, R202, R213). -/
abbrev fires (c : Controller) : Prop := t1Fires c ∨ t2Fires c ∨ srFires c

/-- The Controller after one Phase A, with `f` for its flag byte (R200 to R213). -/
def phaseA (f : Byte) (c : Controller) : Controller :=
  { c with
    t1c := if c.t1on = true then
        (if t1Wraps c ∧ t1Free c then pair c.t1lh c.t1ll else BitVec.ofNat 16 (c.t1c.toNat + 65535))
      else c.t1c
    t1pb7 := if t1Wraps c ∧ t1Free c then !c.t1pb7 else if t1Fires c then true else c.t1pb7
    t1arm := if t1Wraps c ∧ ¬ t1Free c then false else c.t1arm
    t2c := if t2Counts c then BitVec.ofNat 16 (c.t2c.toNat + 65535) else c.t2c
    t2arm := if t2Fires c then false else c.t2arm
    srdiv := if c.srdiv.toNat = 0 then c.t2ll else BitVec.ofNat 8 (c.srdiv.toNat - 1)
    srph := if c.srdiv.toNat = 0 then !c.srph else c.srph
    sr := if shifts c then
        BitVec.ofNat 8 (2 * c.sr.toNat + if 4 ≤ mode c ∧ 128 ≤ c.sr.toNat then 1 else 0)
      else c.sr
    cb2s := if shifts c ∧ 4 ≤ mode c then decide (128 ≤ c.sr.toNat) else c.cb2s
    srcnt := if counted c then c.srcnt + 1 else c.srcnt
    ifr := f }

/-! ### Runs and results -/

/-- `n` equal requests in a row. -/
abbrev times (n : Nat) (i : Instr) : List Instr := List.replicate n i

/-- The records of the vector-sink calls among outputs, in order (45_scheduler.md R364). -/
def emitted (os : List Output) : List VecRec :=
  os.filterMap fun o =>
    match o with
    | .line v => some v
    | _ => none

/-- A result with its next state changed. -/
def mapNext (f : State → State) : Res → Res
  | .next s => .next (f s)
  | .fault e => .fault e
  | .refused e => .refused e

/-- The state with other direction registers. -/
def withDirections (a b : Byte) (s : State) : State := { s with c := { s.c with ddra := a, ddrb := b } }

/-- A tone voice after a period write: the period, and the counter moved by its change and at least 1
(42_synth_registers.md R241, D18, D19). -/
def retuned (fine coarse : Byte) (v : Voice) : Voice :=
  let p := max 1 (fine.toNat + 256 * (coarse.toNat % 16))
  { v with per := p, cnt := max 1 (v.cnt + ((p : Int) - (v.per : Int))) }

/-- A tone voice after a volume write (42_synth_registers.md R250, D18; 30_encoding.md R113). -/
def revolumed (p : Params) (d : Byte) (volE : Nat) (v : Voice) : Voice :=
  { v with
    envSel := decide (d.toNat / 16 % 2 = 1)
    vol := if d.toNat / 16 % 2 = 1 then volE
      else p.vol (BitVec.ofNat 5 (if d.toNat % 16 = 0 then 0 else 2 * (d.toNat % 16) + 1)) }

/-- An envelope-driven voice takes the envelope's volume (42_synth_registers.md R257). -/
def following (volE : Nat) (v : Voice) : Voice := { v with vol := if v.envSel = true then volE else v.vol }

/-- The number of shift pulses in the first `k` Phase A after an access at 0xA, with `d` the divider at the access and `l`
its reload value: the first pulse is in Phase A `d + 1`, the others `2 * (l + 1)` apart (70_reset_and_hazards.md R430). -/
def pulsesBy (d l k : Nat) : Nat := if k ≤ d then 0 else (k - (d + 1)) / (2 * (l + 1)) + 1

end Sys2Proof.Claim

open Sys2Proof Sys2Proof.Machine Sys2Proof.Claim

/-! ### Encoding and stepping -/

/-- The nineteen words of 95_test_vectors.md section 2.1 decode to the requests beside them, or are refused under the clause of
30_encoding.md section 2 beside them (the clause's name is the model's, assumption log 6). -/
def Obligations.SpecWordsDecodeToTheirRequests : Prop :=
  decode 0x0D00#16 = .ok .crdD ∧ decode 0x2E7F#16 = .ok (.cwrE 0x7F#8) ∧ decode 0x4D00#16 = .ok (.srd 13#4)
  ∧ decode 0x6D0E#16 = .ok (.swrD 0x0E#8) ∧ decode 0x8300#16 = .ok .cyc ∧ decode 0x8505#16 = .ok (.iend 5#8)
  ∧ decode 0x8500#16 = .ok (.iend 0#8) ∧ decode 0xA3C8#16 = .ok (.joy 3#2 200#8)
  ∧ decode 0xA4FE#16 = .ok (.psgin 0xFE#8)
  ∧ decode 0xC000#16 = .error .reservedClass ∧ decode 0xE123#16 = .error .reservedClass
  ∧ decode 0x1000#16 = .error .windowBitSet ∧ decode 0x0001#16 = .error .readWithData
  ∧ decode 0x7F00#16 = .error .windowBitSet ∧ decode 0x4A01#16 = .error .readWithData
  ∧ decode 0x8900#16 = .error .reservedStep ∧ decode 0x8001#16 = .error .stepWithData ∧ decode 0x8801#16 = .error .stepWithData
  ∧ decode 0xA500#16 = .error .reservedHost

/-- The decoder refuses exactly the words that one of R109's six clauses names, and `Word.wellFormed` accepts the others
(30_encoding.md section 2; the encoding is the spec's own decision D1). -/
def Obligations.DecoderRefusesExactlyTheReservedWords : Prop :=
  ∀ w : Word,
    let cls := w.toNat / 8192
    let sel := w.toNat / 256 % 32
    let d := w.toNat % 256
    ((∃ why, decode w = .error why) ↔
      6 ≤ cls ∨ (cls < 4 ∧ 16 ≤ sel) ∨ ((cls = 0 ∨ cls = 2) ∧ d ≠ 0) ∨ (cls = 4 ∧ 9 ≤ sel)
      ∨ (cls = 4 ∧ sel ≠ 5 ∧ d ≠ 0) ∨ (cls = 5 ∧ 5 ≤ sel))
    ∧ (w.wellFormed = true ↔ ∃ i, decode w = .ok i)

/-- Decoding the encoding of any request gives it back, with every operand (30_encoding.md section 2, decision D1). -/
def Obligations.DecodeOfEncodeIsTheRequest : Prop :=
  ∀ i : Instr, decode (encode i) = .ok i

/-- Every request has one word: encoding what a word decodes to gives the word back, no bit dropped
(30_encoding.md section 2, decision D1). -/
def Obligations.EncodeOfDecodeIsTheWord : Prop :=
  ∀ (w : Word) (i : Instr), decode w = .ok i → encode i = w

/-- A step whose next issue is a word that decodes to `i` is `exec i` with that issue taken off the request stream
(assumption log 1: the stream stands in State). -/
def Obligations.StepServesTheDecodedRequest : Prop :=
  (∀ (s : State) (w : Word) (i : Instr) (rest : List Issue), s.pending = .one w :: rest → decode w = .ok i →
    step s = exec i { s with pending := rest })
  ∧ ∀ (s : State) (i : Instr), step { s with pending := .one (encode i) :: s.pending } = exec i s

/-- Where a step does not serve a request: a reserved word and two unserialised requests are refused, and with nothing
issued the block does not move (60_exceptions.md section 1, decision D37; section 7; assumption logs 1, 3). -/
def Obligations.StepRefusesWhatTheSpecRefuses : Prop :=
  (∀ (s : State) (w : Word) (why : ReservedReason) (rest : List Issue), s.pending = .one w :: rest →
    decode w = .error why → step s = .refused (.reservedRequest why))
  ∧ (∀ (s : State) (w₁ w₂ : Word) (rest : List Issue), s.pending = .together w₁ w₂ :: rest →
    step s = .refused .overlappingAgentSteps)
  ∧ ∀ s : State, s.pending = [] → step s = .next s

/-- Every request has an outcome in every state: a next state, except that a request with a Beam Engine step in it may
fault at the position limit; no request is refused once decoded (60_exceptions.md section 1; 44_beam_engine.md section 6). -/
def Obligations.EveryRequestCompletesOrReachesThePositionLimit : Prop :=
  ∀ (i : Instr) (s : State),
    (∃ t, exec i s = .next t)
    ∨ (exec i s = .fault .beamPositionBeyondPosLimit ∧ (i = .beam ∨ i = .cyc ∨ ∃ n, i = .iend n))

/-! ### Controller reads -/

/-- The reads that return one register and change nothing (R147, R148, R150, R151, R152, R156, R157, R159), each with its
request word. The byte goes to the surroundings (assumption log 4); the words are those of the rules' encoding lines
(decision D1). -/
def Obligations.PlainReadsReturnTheirRegister : Prop :=
  ∀ s : State,
    (decode 0x0200#16 = .ok .crd2 ∧ exec .crd2 s = .next { s with out := s.out ++ [.byte s.c.ddrb] })
    ∧ (decode 0x0300#16 = .ok .crd3 ∧ exec .crd3 s = .next { s with out := s.out ++ [.byte s.c.ddra] })
    ∧ (decode 0x0500#16 = .ok .crd5
        ∧ exec .crd5 s = .next { s with out := s.out ++ [.byte (BitVec.ofNat 8 (s.c.t1c.toNat / 256))] })
    ∧ (decode 0x0600#16 = .ok .crd6 ∧ exec .crd6 s = .next { s with out := s.out ++ [.byte s.c.t1ll] })
    ∧ (decode 0x0700#16 = .ok .crd7 ∧ exec .crd7 s = .next { s with out := s.out ++ [.byte s.c.t1lh] })
    ∧ (decode 0x0B00#16 = .ok .crdB ∧ exec .crdB s = .next { s with out := s.out ++ [.byte s.c.acr] })
    ∧ (decode 0x0C00#16 = .ok .crdC ∧ exec .crdC s = .next { s with out := s.out ++ [.byte s.c.pcr] })
    ∧ (decode 0x0E00#16 = .ok .crdE
        ∧ exec .crdE s = .next { s with out := s.out ++ [.byte (BitVec.ofNat 8 (128 + s.c.ier.toNat))] })

/-- `CRD 9` returns the high byte of timer 2's counter (the spec's decision D7) and `CRD D` the flag byte, neither changing
anything; in a state that meets the invariant the flag byte has the aggregate in bit 7 and 0 in bits 4, 3, 1 and 0
(decisions D8, D46) (40_controller_bus.md section 2; 60_exceptions.md section 2). -/
def Obligations.Timer2HighAndFlagReadsChangeNothing : Prop :=
  ∀ s : State,
    exec .crd9 s = .next { s with out := s.out ++ [.byte (BitVec.ofNat 8 (s.c.t2c.toNat / 256))] }
    ∧ exec .crdD s = .next { s with out := s.out ++ [.byte s.c.ifr] }
    ∧ (s.Inv → aggregated s.c.ifr s.c.ier ∧ s.c.ifr.getLsbD 4 = false ∧ s.c.ifr.getLsbD 3 = false
        ∧ s.c.ifr.getLsbD 1 = false ∧ s.c.ifr.getLsbD 0 = false)

/-- `CRD 0` changes nothing and returns bit 7 from the toggle or from `C.ORB` by `C.ACR[7]`, and each other bit from `C.ORB`,
but the bits of `PB_INPUT_MASK` from the hook, which has the compare bit at bit 5 and 0 elsewhere (40_controller_bus.md
section 2, decision D10; 45_scheduler.md section 3, D26; 90_conflicts.md C6; assumption log 10). -/
def Obligations.PortBReadComposesRegisterToggleAndCompare : Prop :=
  ∀ s : State, ∃ v : Byte,
    exec .crd0 s = .next { s with out := s.out ++ [.byte v] }
    ∧ v.getLsbD 7 = (if s.c.acr.getLsbD 7 then s.c.t1pb7 else s.c.orb.getLsbD 7)
    ∧ ∀ i, i < 7 → v.getLsbD i
        = if s.cfg.pbInputMask.getLsbD i = true then (decide (i = 5) && s.b.cmp) else s.c.orb.getLsbD i

/-- `CRD 1` and `CRD F` return the byte the Synthesizer drives, or `C.ORA`; `CRD 1` drives line 1 low in the handshake and
pulse modes, `CRD F` never does (40_controller_bus.md section 2, decisions D9, D11; 45_scheduler.md section 3, D26). -/
def Obligations.PortAReadsReturnDrivenByteOrRegister : Prop :=
  ∀ s : State,
    exec .crd1 s = .next { s with
      c := { s.c with ca2 := if drivesLow s.cfg (line1 s.c) then false else s.c.ca2 }
      out := s.out ++ [.byte (portAByte s)] }
    ∧ exec .crdF s = .next { s with out := s.out ++ [.byte (portAByte s)] }

/-- Reading a counter's low byte returns the counter as it was, clears the timer's flag, stops and disarms the timer, and for
timer 1 sets the toggle high; nothing else changes (R149, R153; the words are those of the rules' encoding lines, D1). -/
def Obligations.CounterLowReadsStopTheTimer : Prop :=
  ∀ s : State,
    (decode 0x0400#16 = .ok .crd4 ∧ ∃ f : Byte, flagFell 6 s.c f ∧
      exec .crd4 s = .next { s with
        c := { s.c with ifr := f, t1on := false, t1arm := false, t1pb7 := true }
        out := s.out ++ [.byte (BitVec.ofNat 8 (s.c.t1c.toNat % 256))] })
    ∧ (decode 0x0800#16 = .ok .crd8 ∧ ∃ f : Byte, flagFell 5 s.c f ∧
      exec .crd8 s = .next { s with
        c := { s.c with ifr := f, t2on := false, t2arm := false }
        out := s.out ++ [.byte (BitVec.ofNat 8 (s.c.t2c.toNat % 256))] })

/-- A read and a write at 0xA restart the shift count, set the phase (to 1: the spec's decision D14) and clear the flag; the
read returns the register, the write stores it; nothing else changes (40_controller_bus.md sections 1 to 3). -/
def Obligations.ShiftRegisterAccessesRestartTheCount : Prop :=
  ∀ (s : State) (d : Byte),
    (∃ f : Byte, flagFell 2 s.c f ∧
      exec .crdA s = .next { s with
        c := { s.c with ifr := f, srcnt := 0, srph := true }, out := s.out ++ [.byte s.c.sr] })
    ∧ ∃ f : Byte, flagFell 2 s.c f ∧
      exec (.cwrA d) s = .next { s with c := { s.c with sr := d, ifr := f, srcnt := 0, srph := true } }

/-! ### Controller writes -/

/-- The plain writes store their byte and change nothing else (R163, R164, R167, R169, R172; the words are those of the rules'
encoding lines, decision D1). -/
def Obligations.PlainWritesStoreTheirByte : Prop :=
  ∀ (s : State) (d : Byte),
    (decode (BitVec.ofNat 16 (0x2200 + d.toNat)) = .ok (.cwr2 d)
      ∧ exec (.cwr2 d) s = .next { s with c := { s.c with ddrb := d } })
    ∧ (decode (BitVec.ofNat 16 (0x2300 + d.toNat)) = .ok (.cwr3 d)
      ∧ exec (.cwr3 d) s = .next { s with c := { s.c with ddra := d } })
    ∧ (decode (BitVec.ofNat 16 (0x2600 + d.toNat)) = .ok (.cwr6 d)
      ∧ exec (.cwr6 d) s = .next { s with c := { s.c with t1ll := d } })
    ∧ (decode (BitVec.ofNat 16 (0x2800 + d.toNat)) = .ok (.cwr8 d)
      ∧ exec (.cwr8 d) s = .next { s with c := { s.c with t2ll := d } })
    ∧ (decode (BitVec.ofNat 16 (0x2B00 + d.toNat)) = .ok (.cwrB d)
      ∧ exec (.cwrB d) s = .next { s with c := { s.c with acr := d } })

/-- `CWR 4` stores timer 1's low latch only; `CWR 5` and, with `T1_LATCH_HI_WRITE_STARTS`, `CWR 7` store the high latch, load
the counter from both latches, clear the flag, start and arm the timer and put the toggle low; without the parameter `CWR 7`
stores the latch only (40_controller_bus.md sections 1 and 3: the spec's decisions D4, D5, and D6 with 90_conflicts.md C1 for
`CWR 7`; assumption log 8). -/
def Obligations.Timer1WritesLoadAndStart : Prop :=
  ∀ (s : State) (d : Byte),
    exec (.cwr4 d) s = .next { s with c := { s.c with t1ll := d } }
    ∧ ∃ f : Byte, flagFell 6 s.c f ∧
      exec (.cwr5 d) s = .next { s with
        c := { s.c with t1lh := d, t1c := pair d s.c.t1ll, ifr := f, t1on := true, t1arm := true, t1pb7 := false } }
      ∧ exec (.cwr7 d) s = .next (if s.cfg.t1LatchHiWriteStarts = true then { s with
          c := { s.c with t1lh := d, t1c := pair d s.c.t1ll, ifr := f, t1on := true, t1arm := true, t1pb7 := false } }
        else { s with c := { s.c with t1lh := d } })

/-- `CWR 9` stores timer 2's high latch (the spec's decision D7), loads the counter, clears the flag, starts and arms the timer
(40_controller_bus.md sections 1 and 3). -/
def Obligations.Timer2HighWriteLoadsAndStarts : Prop :=
  ∀ (s : State) (d : Byte), ∃ f : Byte, flagFell 5 s.c f ∧
    exec (.cwr9 d) s = .next { s with
      c := { s.c with t2lh := d, t2c := pair d s.c.t2ll, ifr := f, t2on := true, t2arm := true } }

/-- `CWR 0`: the register, the protocol step and the sample update under the new byte, and line 2 low in its handshake and
pulse modes (40_controller_bus.md section 3; 45_scheduler.md section 3: decisions D9, D26, D27, D31). -/
def Obligations.PortBWriteRunsProtocolAndSampleUpdate : Prop :=
  ∀ (s : State) (d : Byte),
    exec (.cwr0 d) s = .next { protocol { s with c := { s.c with orb := d } } with
      c := { s.c with orb := d, cb2h := if drivesLow s.cfg (line2 s.c) then false else s.c.cb2h }
      b := sampled d s.b }

/-- `CWR 1` and `CWR F`: the register, the protocol step, X latched from the byte with its top bit inverted, and the sample
update under the port-B byte; `CWR 1` also drives line 1 low in its handshake and pulse modes (40_controller_bus.md
section 3; 45_scheduler.md section 3: decisions D9, D26, D27, D31). -/
def Obligations.PortAWritesDriveProtocolAndBeam : Prop :=
  ∀ (s : State) (d : Byte),
    exec (.cwr1 d) s = .next { protocol { s with c := { s.c with ora := d } } with
      c := { s.c with ora := d, ca2 := if drivesLow s.cfg (line1 s.c) then false else s.c.ca2 }
      b := sampled s.c.orb { s.b with xsh := BitVec.ofNat 8 ((d.toNat + 128) % 256) } }
    ∧ exec (.cwrF d) s = .next { protocol { s with c := { s.c with ora := d } } with
      b := sampled s.c.orb { s.b with xsh := BitVec.ofNat 8 ((d.toNat + 128) % 256) } }

/-- After every request that updates the samples the compare bit is "joystick greater than X" and the deltas are X minus
reference and reference minus Y, each in [-255, 255] (44_beam_engine.md section 2). Which requests do: the Beam Engine step, so
`BEAM`, `CYC` and an `IEND` of at least one cycle, and the port writes, by decision D31 (assumption log 31) on the wiring of
D26 (assumption log 25). -/
def Obligations.CompareAndDeltasFollowTheSamples : Prop :=
  ∀ (i : Instr) (s t : State), 
    ((∃ d, i = .cwr0 d ∨ i = .cwr1 d ∨ i = .cwrF d) ∨ i = .beam ∨ i = .cyc ∨ ∃ n : Byte, 0 < n.toNat ∧ i = .iend n) →
    exec i s = .next t →
    (t.b.cmp = true ↔ t.b.xsh.toNat < t.b.jsh.toNat)
    ∧ t.b.dx = (t.b.xsh.toNat : Int) - (t.b.rsh.toNat : Int) ∧ t.b.dy = (t.b.rsh.toNat : Int) - (t.b.ysh.toNat : Int)
    ∧ -255 ≤ t.b.dx ∧ t.b.dx ≤ 255 ∧ -255 ≤ t.b.dy ∧ t.b.dy ≤ 255

/-- `CWR C` stores the register and sets each line low in mode 0b110 and high in every other mode (40_controller_bus.md
section 3; the fields' places are decision D9). -/
def Obligations.ControlWriteSetsBothLines : Prop :=
  ∀ (s : State) (d : Byte),
    exec (.cwrC d) s = .next { s with
      c := { s.c with pcr := d, ca2 := decide (d.toNat / 2 % 8 ≠ 6), cb2h := decide (d.toNat / 32 ≠ 6) } }

/-- A write at 0xD clears exactly the flags its bits 6:0 name, a write at 0xE sets or clears exactly the enables its bits 6:0
name by its bit 7, each recomputes the aggregate, and nothing else changes (R111, R174, R175; the words are those of the
rules' encoding lines, decision D1). -/
def Obligations.FlagAndEnableWritesActBitByBit : Prop :=
  ∀ (s : State) (d : Byte),
    (decode (BitVec.ofNat 16 (0x2D00 + d.toNat)) = .ok (.cwrD d) ∧ ∃ f : Byte,
      exec (.cwrD d) s = .next { s with c := { s.c with ifr := f } }
      ∧ (∀ i, i < 7 → f.getLsbD i = (s.c.ifr.getLsbD i && !d.getLsbD i)) ∧ aggregated f s.c.ier)
    ∧ (decode (BitVec.ofNat 16 (0x2E00 + d.toNat)) = .ok (.cwrE d) ∧ ∃ (f : Byte) (e : BitVec 7),
      exec (.cwrE d) s = .next { s with c := { s.c with ifr := f, ier := e } }
      ∧ (∀ i, i < 7 → f.getLsbD i = s.c.ifr.getLsbD i)
      ∧ (∀ i, i < 7 → e.getLsbD i
          = if d.getLsbD 7 then s.c.ier.getLsbD i || d.getLsbD i else s.c.ier.getLsbD i && !d.getLsbD i)
      ∧ aggregated f e)

/-- Writing and then reading back the direction registers, the two timer-1 latches and the two control registers returns the
byte written (40_controller_bus.md section 4, derived there; for 0x7 whether or not `T1_LATCH_HI_WRITE_STARTS`, decision D6). -/
def Obligations.RegisterWritesReadBackTheByteWritten : Prop :=
  ∀ (s : State) (d : Byte),
    (execAll [.cwr2 d, .crd2] s = .next { s with c := { s.c with ddrb := d }, out := s.out ++ [.byte d] })
    ∧ (execAll [.cwr3 d, .crd3] s = .next { s with c := { s.c with ddra := d }, out := s.out ++ [.byte d] })
    ∧ (execAll [.cwr6 d, .crd6] s = .next { s with c := { s.c with t1ll := d }, out := s.out ++ [.byte d] })
    ∧ (∃ t, execAll [.cwr7 d, .crd7] s = .next t ∧ t.c.t1lh = d ∧ t.out = s.out ++ [.byte d])
    ∧ (execAll [.cwrB d, .crdB] s = .next { s with c := { s.c with acr := d }, out := s.out ++ [.byte d] })
    ∧ ∃ t, execAll [.cwrC d, .crdC] s = .next t ∧ t.c.pcr = d ∧ t.out = s.out ++ [.byte d]

/-! ### Interrupt flags -/

/-- After every request that changes a flag or an enable the aggregate bit is that of the new flags and enables, and the
requests that write a flag or an enable recompute it even where they change nothing: the accesses that clear or enable (`CWR 7`
among them with `T1_LATCH_HI_WRITE_STARTS`, decision D6, assumption log 8), and `PHA`, `CYC` and `IEND` where a Phase A raises
a flag, raised already or not (10_state.md section 1; 40_controller_bus.md section 1; bit places are decision D8). -/
def Obligations.AggregateFollowsEveryFlagOrEnableChange : Prop :=
  (∀ (i : Instr) (s t : State), exec i s = .next t → (t.c.ifr ≠ s.c.ifr ∨ t.c.ier ≠ s.c.ier) →
    aggregated t.c.ifr t.c.ier)
  ∧ (∀ (i : Instr) (s : State),
    (i = .crd4 ∨ i = .crd8 ∨ i = .crdA
      ∨ (∃ d, i = .cwr5 d ∨ i = .cwr9 d ∨ i = .cwrA d ∨ i = .cwrD d ∨ i = .cwrE d)
      ∨ (s.cfg.t1LatchHiWriteStarts = true ∧ ∃ d, i = .cwr7 d) ∨ (i = .pha ∧ fires s.c)) →
    ∃ t, exec i s = .next t ∧ aggregated t.c.ifr t.c.ier)
  ∧ (∀ s t : State, fires s.c → exec .cyc s = .next t → aggregated t.c.ifr t.c.ier)
  ∧ ∀ (s t u : State) (n : Byte) (k : Nat), k < n.toNat → execAll (times k .cyc) s = .next u → fires u.c →
    exec (.iend n) s = .next t → aggregated t.c.ifr t.c.ier

/-- A raised flag is cleared by the requests 60_exceptions.md section 2 lists and by no other: `CWR 7` is one with
`T1_LATCH_HI_WRITE_STARTS` (decision D6, assumption log 8), and the flags' bit numbers are decision D8 (assumption log 23). -/
def Obligations.FlagsFallOnlyByTheListedRequests : Prop :=
  ∀ (i : Instr) (s t : State) (k : Nat), k < 7 → s.c.ifr.getLsbD k = true → exec i s = .next t →
    (t.c.ifr.getLsbD k = false ↔
      (∃ d : Byte, i = .cwrD d ∧ d.getLsbD k = true)
      ∨ (k = 6 ∧ (i = .crd4 ∨ ∃ d, i = .cwr5 d ∨ (i = .cwr7 d ∧ s.cfg.t1LatchHiWriteStarts = true)))
      ∨ (k = 5 ∧ (i = .crd8 ∨ ∃ d, i = .cwr9 d))
      ∨ (k = 2 ∧ (i = .crdA ∨ ∃ d, i = .cwrA d))
      ∨ i = .reset)

/-- A flag rises only in a request that runs Phase A, and only flags 6, 5 and 2 do; enables change only by a write at 0xE and
by reset (60_exceptions.md section 2; bit places and the flags without a source are decisions D8, D46). -/
def Obligations.FlagsRiseOnlyInPhaseAAndEnablesOnlyByWrite : Prop :=
  ∀ (i : Instr) (s t : State), exec i s = .next t →
    (∀ k, k < 7 → s.c.ifr.getLsbD k = false → t.c.ifr.getLsbD k = true →
      (k = 6 ∨ k = 5 ∨ k = 2) ∧ (i = .pha ∨ i = .cyc ∨ ∃ n, i = .iend n))
    ∧ (t.c.ier ≠ s.c.ier → (∃ d, i = .cwrE d) ∨ i = .reset)

/-! ### Phase A and Phase B -/

/-- One Phase A is one simultaneous update of the timers, the divider and the shift register from the state before it, the
flags that rise being exactly those of the timers that fire and of a completed shift (41_controller_cycle.md section 1, with
the spec's decisions D8, D12, D13, D14, D41). -/
def Obligations.PhaseAIsOneSimultaneousUpdate : Prop :=
  ∀ s : State, ∃ f : Byte,
    exec .pha s = .next { s with c := Claim.phaseA f s.c }
    ∧ (∀ i, i < 7 → (f.getLsbD i = true ↔
        s.c.ifr.getLsbD i = true ∨ (i = 6 ∧ t1Fires s.c) ∨ (i = 5 ∧ t2Fires s.c) ∨ (i = 2 ∧ srFires s.c)))
    ∧ (t1Fires s.c ∨ t2Fires s.c ∨ srFires s.c → aggregated f s.c.ier)
    ∧ (¬ t1Fires s.c → ¬ t2Fires s.c → ¬ srFires s.c → f = s.c.ifr)

/-- In the disabled and the two external-clock modes no number of Phase A shifts, counts, drives the line or raises the flag
(R205, R208, R212). -/
def Obligations.InertShiftModesNeverShift : Prop :=
  ∀ (s : State) (n : Nat), (mode s.c = 0 ∨ mode s.c = 3 ∨ mode s.c = 7) → s.c.srcnt < 8 →
    ∃ t, execAll (times n .pha) s = .next t ∧ t.c.sr = s.c.sr ∧ t.c.srcnt = s.c.srcnt ∧ t.c.cb2s = s.c.cb2s
      ∧ t.c.ifr.getLsbD 2 = s.c.ifr.getLsbD 2

/-- After a write at 0x5 that loads N, timer 1 counts down once per Phase A; the flag rises in Phase A N + 1 and no earlier,
with the toggle high, whichever the mode; a one-shot timer is then disarmed and keeps counting down past 0xFFFF
(70_reset_and_hazards.md section 3; 41_controller_cycle.md section 1; decisions D5, D12). -/
def Obligations.Timer1FlagRisesInPhaseANPlusOne : Prop :=
  ∀ (s : State) (d : Byte) (k : Nat), ∃ u, execAll (.cwr5 d :: times k .pha) s = .next u
    ∧ (k ≤ 256 * d.toNat + s.c.t1ll.toNat →
        u.c.t1c.toNat = 256 * d.toNat + s.c.t1ll.toNat - k ∧ u.c.ifr.getLsbD 6 = false ∧ u.c.t1pb7 = false)
    ∧ (k = 256 * d.toNat + s.c.t1ll.toNat + 1 → u.c.ifr.getLsbD 6 = true ∧ u.c.t1pb7 = true)
    ∧ (256 * d.toNat + s.c.t1ll.toNat < k → ¬ t1Free s.c →
        u.c.ifr.getLsbD 6 = true ∧ u.c.t1pb7 = true ∧ u.c.t1arm = false
        ∧ (u.c.t1c.toNat + k) % 65536 = 256 * d.toNat + s.c.t1ll.toNat)

/-- In free-run mode a timer loaded with N is back at N after every N + 1 Phase A, and the toggle has flipped once for each
(70_reset_and_hazards.md section 3; 41_controller_cycle.md section 1; decision D5). -/
def Obligations.FreeRunToggleFlipsOncePerPeriod : Prop :=
  ∀ (s : State) (d : Byte) (m : Nat), t1Free s.c →
    ∃ u, execAll (.cwr5 d :: times (m * (256 * d.toNat + s.c.t1ll.toNat + 1)) .pha) s = .next u
      ∧ u.c.t1c.toNat = 256 * d.toNat + s.c.t1ll.toNat ∧ u.c.t1pb7 = decide (m % 2 = 1)
      ∧ (u.c.ifr.getLsbD 6 = true ↔ 0 < m)

/-- After a write at 0x9 that loads N, timer 2's flag rises in Phase A N + 1 and no earlier, once; in pulse-counting mode the
counter is frozen (70_reset_and_hazards.md section 3; 41_controller_cycle.md section 1; decisions D8, D41). -/
def Obligations.Timer2FlagRisesOnceInPhaseANPlusOne : Prop :=
  ∀ (s : State) (d : Byte) (k : Nat), ∃ u, execAll (.cwr9 d :: times k .pha) s = .next u
    ∧ (s.c.acr.toNat / 32 % 2 = 1 → u.c.t2c.toNat = 256 * d.toNat + s.c.t2ll.toNat ∧ u.c.ifr.getLsbD 5 = false)
    ∧ (s.c.acr.toNat / 32 % 2 = 0 → k ≤ 256 * d.toNat + s.c.t2ll.toNat →
        u.c.t2c.toNat = 256 * d.toNat + s.c.t2ll.toNat - k ∧ u.c.ifr.getLsbD 5 = false ∧ u.c.t2arm = true)
    ∧ (s.c.acr.toNat / 32 % 2 = 0 → 256 * d.toNat + s.c.t2ll.toNat < k →
        u.c.ifr.getLsbD 5 = true ∧ u.c.t2arm = false ∧ (u.c.t2c.toNat + k) % 65536 = 256 * d.toNat + s.c.t2ll.toNat)

/-- In the every-cycle shift-out mode a byte written at 0xA leaves by its top bit first, one bit per Phase A, is back in place
after eight and raises the flag in the eighth (41_controller_cycle.md section 1; decisions D13, D14). -/
def Obligations.ShiftOutSendsAByteInEightPhaseA : Prop :=
  ∀ (s : State) (d : Byte) (k : Nat), mode s.c = 6 →
    ∃ u, execAll (.cwrA d :: times k .pha) s = .next u
      ∧ (k ≤ 8 → u.c.sr = d.rotateLeft k ∧ u.c.srcnt = k ∧ (0 < k → u.c.cb2s = d.getLsbD (8 - k))
          ∧ (u.c.ifr.getLsbD 2 = true ↔ k = 8))
      ∧ (8 ≤ k → u.c.sr = d ∧ u.c.srcnt = 8 ∧ u.c.cb2s = d.getLsbD 0 ∧ u.c.ifr.getLsbD 2 = true)

/-- In the divided-clock one-shot modes the bits shifted after an access at 0xA are the shift pulses so far, at most eight: the
first pulse comes `C.SRDIV + 1` Phase A after the access and the others `2 * (C.T2LL + 1)` apart
(70_reset_and_hazards.md section 3; 41_controller_cycle.md section 1; decisions D13, D14). -/
def Obligations.ShiftPulsesComeAtTheDividedClock : Prop :=
  ∀ (s : State) (d : Byte) (k : Nat), (mode s.c = 1 ∨ mode s.c = 5) →
    ∃ u, execAll (.cwrA d :: times k .pha) s = .next u
      ∧ u.c.srcnt = min 8 (pulsesBy s.c.srdiv.toNat s.c.t2ll.toNat k)
      ∧ (u.c.ifr.getLsbD 2 = true ↔ 8 ≤ pulsesBy s.c.srdiv.toNat s.c.t2ll.toNat k)
      ∧ (mode s.c = 5 → u.c.sr = d.rotateLeft (min 8 (pulsesBy s.c.srdiv.toNat s.c.t2ll.toNat k)))

/-- `PHB` raises exactly the lines in pulse mode and changes nothing else, and a second `PHB` changes nothing
(41_controller_cycle.md section 2; the pulse mode's value is decision D9). -/
def Obligations.PhaseBRestoresPulseLinesOnce : Prop :=
  ∀ s : State,
    exec .phb s = .next { s with
      c := { s.c with ca2 := s.c.ca2 || decide (line1 s.c = 5), cb2h := s.c.cb2h || decide (line2 s.c = 5) } }
    ∧ execAll [.phb, .phb] s = exec .phb s

/-! ### Beam Engine -/

/-- `BEAM` answers a next state exactly when the position it integrates to is inside the limit, and faults otherwise; it moves
the beam by the step's velocity, updates the samples under `C.ORB`, emits at most one record, and leaves the Controller, the
Synthesizer, the axes, the selection, the frame counter and the request stream alone (44_beam_engine.md sections 1 to 5; the
signals' sources are decision D27, the limit D29). -/
def Obligations.BeamStepMovesOrFaultsAtTheLimit : Prop :=
  ∀ s : State,
    let v := Claim.velocity s.cfg s.c s.b
    ((s.b.x + v.1).natAbs < s.cfg.posLimit ∧ (s.b.y + v.2).natAbs < s.cfg.posLimit →
      ∃ (b : Beam) (vs : List VecRec), vs.length ≤ 1
        ∧ exec .beam s = .next { s with
            b := b, g := { s.g with vec := s.g.vec ++ vs }, out := s.out ++ vs.map Output.line }
        ∧ b = { sampled s.c.orb s.b with
            x := s.b.x + v.1, y := s.b.y + v.2
            tr := b.tr, x0 := b.x0, y0 := b.y0, x1 := b.x1, y1 := b.y1, vdx := b.vdx, vdy := b.vdy, vi := b.vi })
    ∧ (¬ ((s.b.x + v.1).natAbs < s.cfg.posLimit ∧ (s.b.y + v.2).natAbs < s.cfg.posLimit) →
      exec .beam s = .fault .beamPositionBeyondPosLimit)

/-- The tracing rules of one Beam Engine step, on the position before integration, with the step's blanking
signal, velocity and intensity: a vector starts, ends when the beam goes off, ends and restarts or stops when a parameter
changed, or continues; then the position is integrated and the end point extended (44_beam_engine.md section 4). The blanking
source and the zero line are decision D27 (assumption log 26), the bounds D28 (assumption log 11), and that the tracing comes
before the integration is D30 (assumption log 31). -/
def Obligations.TracingFollowsItsStateMachine : Prop :=
  ∀ s t : State, exec .beam s = .next t →
    let on := beamOn s.c
    let v := Claim.velocity s.cfg s.c s.b
    let start := t.b.tr = true ∧ t.b.x0 = s.b.x ∧ t.b.y0 = s.b.y ∧ t.b.vdx = v.1 ∧ t.b.vdy = v.2 ∧ t.b.vi = t.b.zsh
      ∧ (t.b.x1, t.b.y1) = if inside s.cfg t.b.x t.b.y then (t.b.x, t.b.y) else (s.b.x, s.b.y)
    let keep := t.b.x0 = s.b.x0 ∧ t.b.y0 = s.b.y0 ∧ t.b.vdx = s.b.vdx ∧ t.b.vdy = s.b.vdy ∧ t.b.vi = s.b.vi
    let stop := t.b.tr = false ∧ keep ∧ t.b.x1 = s.b.x1 ∧ t.b.y1 = s.b.y1
    let silent := t.g.vec = s.g.vec ∧ t.out = s.out
    let done : VecRec := { x0 := s.b.x0, y0 := s.b.y0, x1 := s.b.x1, y1 := s.b.y1, i := s.b.vi }
    let emits := t.g.vec = s.g.vec ++ [done] ∧ t.out = s.out ++ [.line done]
    let changed := v.1 ≠ s.b.vdx ∨ v.2 ≠ s.b.vdy ∨ t.b.zsh ≠ s.b.vi
    (s.b.tr = false → on = true → inside s.cfg s.b.x s.b.y → start ∧ silent)
    ∧ (s.b.tr = false → (on = false ∨ ¬ inside s.cfg s.b.x s.b.y) → stop ∧ silent)
    ∧ (s.b.tr = true → on = false → stop ∧ emits)
    ∧ (s.b.tr = true → on = true → changed → inside s.cfg s.b.x s.b.y → start ∧ emits)
    ∧ (s.b.tr = true → on = true → changed → ¬ inside s.cfg s.b.x s.b.y → stop ∧ emits)
    ∧ (s.b.tr = true → on = true → ¬ changed → t.b.tr = true ∧ keep ∧ silent
        ∧ (t.b.x1, t.b.y1) = if inside s.cfg t.b.x t.b.y then (t.b.x, t.b.y) else (s.b.x1, s.b.y1))
    ∧ t.b.x = s.b.x + v.1 ∧ t.b.y = s.b.y + v.2

/-- A one-shot timer-1 ramp loaded with N moves the beam in exactly N cycles: with the ramp on the toggle, the zero line
inactive and the demultiplexer off, after k cycles the beam has moved min(k, N) times by (X minus reference, reference minus
Y) (70_reset_and_hazards.md section 3, derived there; 44_beam_engine.md section 3; decisions D5, D12, D27). -/
def Obligations.Timer1RampMovesTheBeamForExactlyNCycles : Prop :=
  ∀ (s : State) (d : Byte) (k : Nat),
    let n := 256 * d.toNat + s.c.t1ll.toNat
    s.c.acr.toNat / 128 = 1 → ¬ t1Free s.c → s.c.ca2 = true → s.c.orb.toNat % 2 = 1 →
    s.b.x.natAbs + 255 * n < s.cfg.posLimit → s.b.y.natAbs + 255 * n < s.cfg.posLimit →
    ∃ u, execAll (.cwr5 d :: times k .cyc) s = .next u
      ∧ u.b.x = s.b.x + (min k n : Nat) * ((s.b.xsh.toNat : Int) - (s.b.rsh.toNat : Int))
      ∧ u.b.y = s.b.y + (min k n : Nat) * ((s.b.rsh.toNat : Int) - (s.b.ysh.toNat : Int))

/-! ### Scheduler -/

/-- One cycle is Phase A, the Beam Engine step and Phase B in this order, and no part of it reads or writes the Synthesizer
(R360; the word is that of the rule's encoding line, decision D1). -/
def Obligations.CycleIsPhaseABeamPhaseB : Prop :=
  decode 0x8300#16 = .ok .cyc
  ∧ (∀ s : State, exec .cyc s = execAll [.pha, .beam, .phb] s)
  ∧ ∀ (s : State) (y : Synth), exec .cyc { s with syn := y } = mapNext (fun t => { t with syn := y }) (exec .cyc s)

/-- `CYC` answers a next state wherever the beam is at least one fastest step inside the limit and the display's centre is
inside it; it leaves the Synthesizer, the
selection, the frame counter, the request stream, the ports, the latches, the control registers and the enables alone
(45_scheduler.md section 1; 44_beam_engine.md section 5; 41_controller_cycle.md; the limit is decision D29). -/
def Obligations.CycleCompletesInsideTheLimit : Prop :=
  ∀ s : State, s.b.x.natAbs + 255 < s.cfg.posLimit → s.b.y.natAbs + 255 < s.cfg.posLimit →
    s.cfg.maxX / 2 < s.cfg.posLimit → s.cfg.maxY / 2 < s.cfg.posLimit →
    ∃ t, exec .cyc s = .next t
      ∧ t.cfg = s.cfg ∧ t.syn = s.syn ∧ t.g.sel = s.g.sel ∧ t.g.frame = s.g.frame ∧ t.pending = s.pending ∧ t.b.j = s.b.j
      ∧ t.c = { s.c with
          t1c := t.c.t1c, t1pb7 := t.c.t1pb7, t1arm := t.c.t1arm, t2c := t.c.t2c, t2arm := t.c.t2arm
          sr := t.c.sr, srcnt := t.c.srcnt, srdiv := t.c.srdiv, srph := t.c.srph, ifr := t.c.ifr
          ca2 := t.c.ca2, cb2h := t.c.cb2h, cb2s := t.c.cb2s }
      ∧ ((t.b.x = (s.cfg.maxX / 2 : Nat) ∧ t.b.y = (s.cfg.maxY / 2 : Nat)) ∨
           ((t.b.x - s.b.x).natAbs ≤ 255 ∧ (t.b.y - s.b.y).natAbs ≤ 255))

/-- `IEND n` is n cycles and then the frame accounting: the counter falls by n, and where it goes below 0 it is reloaded to
`FRAME_CYCLES`, the records of the frame are handed over and the list is emptied; it answers a next state wherever the beam
and the display's centre are n fastest steps inside the limit (45_scheduler.md section 2; decisions D32, D33, D50, and D29 for the limit). -/
def Obligations.InstructionEndRunsItsCyclesThenAccounts : Prop :=
  ∀ (s : State) (n : Byte),
    (∀ u, execAll (times n.toNat .cyc) s = .next u →
      exec (.iend n) s = .next
        (if u.g.frame - (n.toNat : Int) < 0 then
          { u with g := { u.g with frame := s.cfg.frameCycles, vec := [] }, out := u.out ++ [.frameFlush u.g.vec] }
        else { u with g := { u.g with frame := u.g.frame - (n.toNat : Int) } }))
    ∧ (s.b.x.natAbs + 255 * n.toNat < s.cfg.posLimit → s.b.y.natAbs + 255 * n.toNat < s.cfg.posLimit →
      s.cfg.maxX / 2 + 255 * n.toNat < s.cfg.posLimit → s.cfg.maxY / 2 + 255 * n.toNat < s.cfg.posLimit →
      ∃ t, exec (.iend n) s = .next t ∧ t.cfg = s.cfg ∧ t.syn = s.syn ∧ t.g.sel = s.g.sel ∧ t.pending = s.pending)

/-- `IBEG` hands over the aggregate bit as the maskable line and 0 as the non-maskable one, and changes nothing
(45_scheduler.md section 2; 60_exceptions.md section 2; decision D34). -/
def Obligations.InstructionBoundaryHandsOverTheAggregate : Prop :=
  ∀ s : State, ∃ irq : Bool,
    exec .ibeg s = .next { s with out := s.out ++ [.irqLines irq false] }
    ∧ irq = s.c.ifr.getLsbD 7
    ∧ (s.Inv → (irq = true ↔ ∃ i, i < 7 ∧ s.c.ifr.getLsbD i = true ∧ s.c.ier.getLsbD i = true))

/-- The record list grows by exactly the records the sink is called with, in the order of the calls, except that `IEND` may
hand it over and empty it; only reset empties it otherwise (45_scheduler.md section 2; decision D32). -/
def Obligations.RecordsGrowAsEmittedUntilTheFlush : Prop :=
  ∀ (i : Instr) (s t : State), exec i s = .next t → i ≠ .reset →
    ∃ os : List Output, t.out = s.out ++ os
      ∧ (t.g.vec = s.g.vec ++ emitted os
        ∨ ((∃ n, i = .iend n) ∧ t.g.vec = [] ∧ t.g.frame = s.cfg.frameCycles
            ∧ Output.frameFlush (s.g.vec ++ emitted os) ∈ os))

/-- The pseudo-instruction `PSGW r, v` writes v into Synthesizer register r through the ports, from any state in which the
protocol is not in its write code, for every register but 14 (30_encoding.md section 6; 45_scheduler.md section 3; decisions
D1, D26). -/
def Obligations.PortProtocolWritesTheRegister : Prop :=
  ∀ (s : State) (r v : Byte), s.c.orb.toNat / 8 % 4 ≠ 2 → r.toNat < 16 → r.toNat ≠ 14 →
    ∃ t, execAll (psgW r v) s = .next t
      ∧ t.syn = s.syn.write s.cfg (BitVec.ofNat 4 r.toNat) v ∧ t.g = { s.g with sel := BitVec.ofNat 4 r.toNat }
      ∧ t.c.ora = v ∧ t.c.orb = 0x01#8 ∧ t.out = s.out

/-! ### Synthesizer -/

/-- `SRD r` returns the raw register and changes nothing (42_synth_registers.md section 3; decision D43). -/
def Obligations.SynthReadReturnsTheRawByte : Prop :=
  ∀ (s : State) (r : BitVec 4),
    exec (.srd r) s = .next { s with out := s.out ++ [.byte (s.syn.r[r.toNat]'r.isLt)] }

/-- The six tone-period writes store the whole byte and retune their voice: the period of the pair with a 4-bit coarse part and
at least 1, the counter moved by the change of period and at least 1 (42_synth_registers.md sections 1 and 2; 30_encoding.md
section 3; decisions D18, D19). -/
def Obligations.TonePeriodWritesRetuneTheirVoice : Prop :=
  ∀ (s : State) (d : Byte),
    let y := s.syn
    exec (.swr0 d) s = .next { s with syn := { y with r := y.r.set 0 d, va := retuned d y.r[1] y.va } }
    ∧ exec (.swr1 d) s = .next { s with syn := { y with r := y.r.set 1 d, va := retuned y.r[0] d y.va } }
    ∧ exec (.swr2 d) s = .next { s with syn := { y with r := y.r.set 2 d, vb := retuned d y.r[3] y.vb } }
    ∧ exec (.swr3 d) s = .next { s with syn := { y with r := y.r.set 3 d, vb := retuned y.r[2] d y.vb } }
    ∧ exec (.swr4 d) s = .next { s with syn := { y with r := y.r.set 4 d, vc := retuned d y.r[5] y.vc } }
    ∧ exec (.swr5 d) s = .next { s with syn := { y with r := y.r.set 5 d, vc := retuned y.r[4] d y.vc } }

/-- The noise-period write takes 5 bits, the envelope-period writes double the 16-bit value before the clamp to 1; each moves
its counter by the change of period, to at least 1 (42_synth_registers.md sections 1 and 2; decisions D18, D19). -/
def Obligations.NoiseAndEnvelopePeriodWrites : Prop :=
  ∀ (s : State) (d : Byte),
    let y := s.syn
    let pn := max 1 (d.toNat % 32)
    let pf := max 1 (2 * (d.toNat + 256 * (y.r[12]).toNat))
    let pc := max 1 (2 * ((y.r[11]).toNat + 256 * d.toNat))
    exec (.swr6 d) s = .next { s with syn := { y with
      r := y.r.set 6 d, perN := pn, cntN := max 1 (y.cntN + ((pn : Int) - (y.perN : Int))) } }
    ∧ exec (.swrB d) s = .next { s with syn := { y with
      r := y.r.set 11 d, perE := pf, cntE := max 1 (y.cntE + ((pf : Int) - (y.perE : Int))) } }
    ∧ exec (.swrC d) s = .next { s with syn := { y with
      r := y.r.set 12 d, perE := pc, cntE := max 1 (y.cntE + ((pc : Int) - (y.perE : Int))) } }

/-- Writes of the enable mask and of the two latches store the byte and change nothing else (42_synth_registers.md section 2;
decisions D24, D26). -/
def Obligations.MaskAndLatchWritesOnlyStore : Prop :=
  ∀ (s : State) (d : Byte),
    exec (.swr7 d) s = .next { s with syn := { s.syn with r := s.syn.r.set 7 d } }
    ∧ exec (.swrE d) s = .next { s with syn := { s.syn with r := s.syn.r.set 14 d } }
    ∧ exec (.swrF d) s = .next { s with syn := { s.syn with r := s.syn.r.set 15 d } }

/-- A volume write stores the byte, takes bit 4 as the envelope select, and gives the voice the envelope's volume or the table
entry of its level (0 for level 0, else the odd entry) (42_synth_registers.md sections 1 and 2; 30_encoding.md section 3;
decision D18). -/
def Obligations.VolumeWritesSelectLevelOrEnvelope : Prop :=
  ∀ (s : State) (d : Byte),
    let y := s.syn
    exec (.swr8 d) s = .next { s with syn := { y with r := y.r.set 8 d, va := revolumed s.cfg d y.volE y.va } }
    ∧ exec (.swr9 d) s = .next { s with syn := { y with r := y.r.set 9 d, vb := revolumed s.cfg d y.volE y.vb } }
    ∧ exec (.swrA d) s = .next { s with syn := { y with r := y.r.set 10 d, vc := revolumed s.cfg d y.volE y.vc } }

/-- A shape write decodes attack, hold and alternate, restarts the envelope at step 31 with a full period (decision D20),
releases the hold and hands the first volume to every envelope-driven voice (42_synth_registers.md section 2; 30_encoding.md
section 3). -/
def Obligations.ShapeWriteRestartsTheEnvelope : Prop :=
  ∀ (s : State) (d : Byte),
    let y := s.syn
    let up := d.toNat / 4 % 2 = 1
    let goes := d.toNat / 8 % 2 = 1
    let e := if up then s.cfg.volTable[0] else s.cfg.volTable[31]
    exec (.swrD d) s = .next { s with syn := { y with
      r := y.r.set 13 d
      attack := if up then 31#5 else 0#5
      hold := if goes then decide (d.toNat % 2 = 1) else true
      alt := if goes then decide (d.toNat / 2 % 2 = 1) else decide up
      cntE := y.perE, step := 31#5, holding := false, volE := e
      va := following e y.va, vb := following e y.vb, vc := following e y.vc } }

/-- A tick counts every tone voice down; a voice whose counter reaches 0 adds its period back and flips its output; a counter
and a period of at least 1 leave a counter of at least 1; from a full counter the output flips once every period (R281). -/
def Obligations.ToneVoicesFlipOncePerPeriod : Prop :=
  (∀ (s : State) (k : Fin 3), ∃ t, exec .tick s = .next t
    ∧ ((s.syn.voice k).cnt - 1 ≤ 0 →
        (t.syn.voice k).cnt = (s.syn.voice k).cnt - 1 + (s.syn.voice k).per ∧ (t.syn.voice k).out = !(s.syn.voice k).out)
    ∧ (0 < (s.syn.voice k).cnt - 1 →
        (t.syn.voice k).cnt = (s.syn.voice k).cnt - 1 ∧ (t.syn.voice k).out = (s.syn.voice k).out)
    ∧ (1 ≤ (s.syn.voice k).per → 1 ≤ (s.syn.voice k).cnt → 1 ≤ (t.syn.voice k).cnt))
  ∧ ∀ (s : State) (k : Fin 3) (m : Nat), 1 ≤ (s.syn.voice k).per → (s.syn.voice k).cnt = (s.syn.voice k).per →
    ∃ t, execAll (times (m * (s.syn.voice k).per) .tick) s = .next t
      ∧ (t.syn.voice k).cnt = (s.syn.voice k).cnt
      ∧ ((t.syn.voice k).out = (s.syn.voice k).out ↔ m % 2 = 0)

/-- A tick counts the noise generator down; on an underflow the period is added back, the output flips exactly when bits 0 and
1 of the register differ, and the register is XORed with 0x24000 when bit 0 is 1 and shifted right, so that a non-zero register
stays non-zero (43_synth_generators.md section 1; decision D23). -/
def Obligations.NoiseRegisterShiftsOnUnderflow : Prop :=
  ∀ s : State, ∃ t, exec .tick s = .next t
    ∧ (0 < s.syn.cntN - 1 → t.syn.cntN = s.syn.cntN - 1 ∧ t.syn.rng = s.syn.rng ∧ t.syn.outN = s.syn.outN)
    ∧ (s.syn.cntN - 1 ≤ 0 →
        t.syn.cntN = s.syn.cntN - 1 + s.syn.perN
        ∧ (t.syn.outN = s.syn.outN ↔ s.syn.rng.toNat % 2 = s.syn.rng.toNat / 2 % 2)
        ∧ t.syn.rng.toNat = (if s.syn.rng.toNat % 2 = 1 then s.syn.rng.toNat ^^^ 0x24000 else s.syn.rng.toNat) / 2)
    ∧ (s.syn.rng ≠ 0#17 → t.syn.rng ≠ 0#17)

/-- A tick's envelope step: nothing while holding; else the counter falls, and on an underflow the period is added back, the
step falls, at the bottom the hold and alternate rules apply, and the new volume goes to every envelope-driven voice
(43_synth_generators.md section 1; the bottom rules are decision D25). -/
def Obligations.EnvelopeStepsOnUnderflow : Prop :=
  ∀ s : State, ∃ t, exec .tick s = .next t
    ∧ (t.syn.perE = s.syn.perE ∧ t.syn.hold = s.syn.hold ∧ t.syn.alt = s.syn.alt)
    ∧ ((s.syn.holding = true ∨ 0 < s.syn.cntE - 1) →
        t.syn.cntE = (if s.syn.holding = true then s.syn.cntE else s.syn.cntE - 1)
        ∧ t.syn.step = s.syn.step ∧ t.syn.attack = s.syn.attack ∧ t.syn.holding = s.syn.holding
        ∧ t.syn.volE = s.syn.volE ∧ ∀ k, (t.syn.voice k).vol = (s.syn.voice k).vol)
    ∧ (s.syn.holding = false → s.syn.cntE - 1 ≤ 0 →
        t.syn.cntE = s.syn.cntE - 1 + s.syn.perE
        ∧ (0 < s.syn.step.toNat → t.syn.step.toNat = s.syn.step.toNat - 1 ∧ t.syn.attack = s.syn.attack
            ∧ t.syn.holding = false)
        ∧ (s.syn.step.toNat = 0 →
            t.syn.attack.toNat = (if s.syn.alt = true then s.syn.attack.toNat ^^^ 31 else s.syn.attack.toNat)
            ∧ t.syn.holding = s.syn.hold ∧ t.syn.step.toNat = if s.syn.hold = true then 0 else 31)
        ∧ t.syn.volE = s.cfg.vol (t.syn.step ^^^ t.syn.attack)
        ∧ ∀ k, (t.syn.voice k).vol = if (s.syn.voice k).envSel = true then t.syn.volE else (s.syn.voice k).vol)

/-- A tick adds each voice's mix bit, of the outputs after the tick, to its high-time count, and leaves the raw registers, the
tone, noise and envelope periods, the envelope selects and everything outside the Synthesizer alone (43_synth_generators.md section 1; decisions D24,
D48). -/
def Obligations.TickAccumulatesTheMixBit : Prop :=
  ∀ s : State, ∃ y : Synth, exec .tick s = .next { s with syn := y }
    ∧ y.r = s.syn.r ∧ y.perN = s.syn.perN ∧ y.perE = s.syn.perE
    ∧ ∀ k : Fin 3, (y.voice k).per = (s.syn.voice k).per ∧ (y.voice k).envSel = (s.syn.voice k).envSel
      ∧ (y.voice k).high = (s.syn.voice k).high
          + if ((y.voice k).out = true ∨ (s.syn.r[7]).getLsbD k.val = true)
              ∧ (y.outN = true ∨ (s.syn.r[7]).getLsbD (3 + k.val) = true) then 1 else 0

/-- After a shape write the envelope descends one step per envelope period from 31, and at the end of the 32 steps it holds at
the bottom or restarts, its polarity inverted exactly when the alternate flag is set (43_synth_generators.md section 1;
42_synth_registers.md section 2; decisions D20, D25). -/
def Obligations.EnvelopeTakesThirtyTwoStepsOfOnePeriod : Prop :=
  ∀ (s : State) (d : Byte) (k : Nat), 1 ≤ s.syn.perE → k ≤ 32 * s.syn.perE →
    ∃ u, execAll (.swrD d :: times k .tick) s = .next u
      ∧ (k < 32 * s.syn.perE →
          u.syn.step.toNat = 31 - k / s.syn.perE ∧ u.syn.attack.toNat = (if d.toNat / 4 % 2 = 1 then 31 else 0)
          ∧ u.syn.holding = false)
      ∧ (k = 32 * s.syn.perE →
          u.syn.holding = u.syn.hold ∧ u.syn.step.toNat = (if u.syn.hold = true then 0 else 31)
          ∧ u.syn.attack.toNat
              = (if u.syn.alt = true then 31 - (if d.toNat / 4 % 2 = 1 then 31 else 0)
                  else if d.toNat / 4 % 2 = 1 then 31 else 0))
      ∧ u.syn.volE = s.cfg.vol (u.syn.step ^^^ u.syn.attack)
      ∧ ∀ v : Fin 3, (u.syn.voice v).envSel = true → (u.syn.voice v).vol = u.syn.volE

/-- `SAMPLE` clears the high-time counts, runs the ticks of a sample, and returns the weighted sum of the voices, scaled and
biased; each count is at most the number of ticks; whatever the number of ticks, the scale and the bias are
(43_synth_generators.md section 2; the parameters are OPEN, decisions D22, D49; assumption log 15). -/
def Obligations.SampleMixesTheHighTimesOfItsTicks : Prop :=
  ∀ s : State, ∃ u,
    execAll (times Config.subticksPerSample .tick)
      { s with syn := { s.syn with
          va := { s.syn.va with high := 0 }, vb := { s.syn.vb with high := 0 }, vc := { s.syn.vc with high := 0 } } }
      = .next u
    ∧ exec .sample s = .next { u with out := s.out ++ [.sample (Config.mixBias + Config.mixScale
        * ((u.syn.va.high * u.syn.va.vol + u.syn.vb.high * u.syn.vb.vol + u.syn.vc.high * u.syn.vc.vol : Nat) : Rat)
        / (Config.subticksPerSample : Rat))] }
    ∧ 0 < Config.subticksPerSample
    ∧ ∀ k : Fin 3, (u.syn.voice k).high ≤ Config.subticksPerSample

/-- The audio agent's ticks and the scheduler agent's cycles do not see each other: a tick and a cycle, and a tick and an
instruction end, give the same result in either order (45_scheduler.md section 1; 20_memory.md section 5; decision D35). -/
def Obligations.TicksAndCyclesCommute : Prop :=
  ∀ (s : State) (n : Byte),
    execAll [.tick, .cyc] s = execAll [.cyc, .tick] s ∧ execAll [.tick, .iend n] s = execAll [.iend n, .tick] s

/-- The direction registers affect nothing: in two states that differ in them only, every request but those that read or write
them gives results that differ in them only (10_state.md section 1; decision D42). -/
def Obligations.DirectionRegistersAffectNothingElse : Prop :=
  ∀ (i : Instr) (s : State) (a b : Byte),
    i ≠ .crd2 → i ≠ .crd3 → (∀ d, i ≠ .cwr2 d) → (∀ d, i ≠ .cwr3 d) → i ≠ .reset →
    exec i (withDirections a b s) = mapNext (withDirections a b) (exec i s)

/-! ### Reset and host inputs -/

/-- `RESET` gives every element of the block the value of 10_state.md section 6 (the spec's decisions D15, D16, D17) from any
state and under any configuration, calling nothing: a voice's volume is the table's entry 0, which 10_state.md section 5 has be
0; the model's own `cfg`, `out` and `pending` stay (assumption logs 36, 41). -/
def Obligations.ResetGivesTheSpecsValues : Prop :=
  ∀ s : State,
    let voice : Voice := { per := 1, cnt := 1, out := false, envSel := false, vol := s.cfg.volTable[0], high := 0 }
    exec .reset s = .next
      { cfg := s.cfg
        c := {
          ora := 0x00, orb := 0x00, ddra := 0x00, ddrb := 0x00
          t1c := 0x0000, t1ll := 0x00, t1lh := 0x00, t1on := false, t1arm := false, t1pb7 := true
          t2c := 0x0000, t2ll := 0x00, t2lh := 0x00, t2on := false, t2arm := false
          sr := 0x00, srcnt := 8, srdiv := 0x00, srph := false
          acr := 0x00, pcr := 0x00, ifr := 0x00, ier := 0x00, ca2 := true, cb2h := true, cb2s := false }
        syn := {
          r := #v[0, 0, 0, 0, 0, 0, 0, 0, 0, 0, 0, 0, 0, 0, s.cfg.psgInputReset, 0]
          va := voice, vb := voice, vc := voice, perN := 1, cntN := 1, outN := true, rng := s.cfg.rngSeed
          perE := 1, cntE := 1, step := 31, hold := true, alt := false, attack := 0, holding := false
          volE := s.cfg.volTable[31] }
        b := {
          rsh := 128, xsh := 128, ysh := 128, zsh := 0, j := #v[128, 128, 128, 128], jsh := 128, cmp := false
          dx := 0, dy := 0, x := (s.cfg.maxX / 2 : Nat), y := (s.cfg.maxY / 2 : Nat), tr := false
          x0 := 0, y0 := 0, x1 := 0, y1 := 0, vdx := 0, vdy := 0, vi := 0 }
        g := { sel := 0, frame := s.cfg.frameCycles, vec := [] }
        out := s.out, pending := s.pending }
    ∧ (∀ t, s.cfg = State.reset.cfg → exec .reset s = .next t → State.reset = { t with out := [], pending := [] })

/-- `JOY k, v` writes axis k and nothing else, `PSGIN v` register 14 and nothing else (44_beam_engine.md section 6,
decision D1; 45_scheduler.md section 3, decision D26). -/
def Obligations.HostInputsWriteOneElement : Prop :=
  ∀ (s : State) (k : BitVec 2) (v : Byte),
    exec (.joy k v) s = .next { s with b := { s.b with j := s.b.j.set k.toNat v k.isLt } }
    ∧ exec (.psgin v) s = .next { s with syn := { s.syn with r := s.syn.r.set 14 v } }

/-! ### Invariants -/

/-- Every step keeps the invariant of 10_state.md section 7 (periods, counters and steps in range, the noise register non-zero,
the shift count at most 8, the aggregate bit), with the derived elements those of the registers, the intensities in 0..127, the
position inside the limit, the open vector and every record inside the display, the frame counter in range, and the
configuration one that 10_state.md section 5 admits (assumption log 41); and no step changes the configuration. -/
def Obligations.EveryStepKeepsTheInvariant : Prop :=
  ∀ s t : State, s.Inv → step s = .next t → t.Inv ∧ t.cfg = s.cfg

/-- The state after reset meets that invariant (10_state.md sections 6 and 7), and its configuration has the values that
00_scope.md section 4 says this spec uses, with the volume table of decision D21. -/
def Obligations.ResetStateMeetsTheInvariant : Prop :=
  State.reset.Inv
  ∧ State.reset.cfg = {
      t1LatchHiWriteStarts := true, hsLowModes := [4, 5], pbInputMask := 0x20, maxX := 33000, maxY := 41000
      posLimit := 2 ^ 31, frameCycles := 50000, cpuHz := 1500000, rngSeed := 1, psgInputReset := 0xFF
      volTable := #v[0, 0, 27, 33, 39, 46, 55, 65, 77, 92, 109, 129, 154, 183, 217, 258,
        307, 365, 434, 516, 613, 728, 865, 1029, 1223, 1453, 1727, 2052, 2439, 2899, 3446, 4095] }
end

