-- ==== Sys2Proof/Laws/Beam.lean ====
section
/-! SUPPORT. One lemma per shared operation of the Beam Engine: what it can do and what it leaves (44_beam_engine.md), and
that a step keeps the Beam Engine's invariant up to the position guard. -/

namespace Sys2Proof.Machine

namespace Beam

/-- The intensity is at most 127 (R322). -/
theorem intensityOf_le (x : Byte) : (intensityOf x).toNat ≤ 127 := by
  have := x.isLt
  unfold intensityOf
  split
  · bv_omega
  · decide

/-- The mux writes the joystick sample-and-hold, and at most one other from X (R321). -/
theorem muxUpdate_cases (orb : Byte) (b : Beam) :
    b.muxUpdate orb = { b with jsh := b.axis (muxSelect orb) }
    ∨ b.muxUpdate orb = { b with jsh := b.axis (muxSelect orb), ysh := b.xsh }
    ∨ b.muxUpdate orb = { b with jsh := b.axis (muxSelect orb), rsh := b.xsh }
    ∨ b.muxUpdate orb = { b with jsh := b.axis (muxSelect orb), zsh := intensityOf b.xsh } := by
  simp only [muxUpdate, latch]
  split
  · split <;> simp
  · simp

/-- A sample update leaves the position, the axes, X and the tracing state (R321 to R324). -/
theorem sampleUpdate_frame (orb : Byte) (b : Beam) :
    b.sampleUpdate orb = { b with
      rsh := (b.sampleUpdate orb).rsh, ysh := (b.sampleUpdate orb).ysh, zsh := (b.sampleUpdate orb).zsh
      jsh := b.axis (muxSelect orb), cmp := (b.sampleUpdate orb).cmp
      dx := (b.sampleUpdate orb).dx, dy := (b.sampleUpdate orb).dy } := by
  rcases muxUpdate_cases orb b with h | h | h | h <;> simp only [sampleUpdate, h, derive]

/-- The compare bit and the deltas after a sample update (R323, R324). -/
theorem sampleUpdate_derived (orb : Byte) (b : Beam) :
    (b.sampleUpdate orb).cmp = decide ((b.sampleUpdate orb).xsh.toNat < (b.sampleUpdate orb).jsh.toNat)
    ∧ (b.sampleUpdate orb).dx = ((b.sampleUpdate orb).xsh.toNat : Int) - ((b.sampleUpdate orb).rsh.toNat : Int)
    ∧ (b.sampleUpdate orb).dy = ((b.sampleUpdate orb).rsh.toNat : Int) - ((b.sampleUpdate orb).ysh.toNat : Int) :=
  ⟨rfl, rfl, rfl⟩

/-- The deltas after a sample update are at most 255 in magnitude (10_state.md R53). -/
theorem sampleUpdate_delta_le (orb : Byte) (b : Beam) :
    (b.sampleUpdate orb).dx.natAbs ≤ 255 ∧ (b.sampleUpdate orb).dy.natAbs ≤ 255 := by
  obtain ⟨-, hx, hy⟩ := sampleUpdate_derived orb b
  have h1 := (b.sampleUpdate orb).xsh.isLt
  have h2 := (b.sampleUpdate orb).rsh.isLt
  have h3 := (b.sampleUpdate orb).ysh.isLt
  omega

/-- A sample update re-establishes the compare bit and the deltas, whatever they were. -/
theorem sampleUpdate_inv' {p : Params} (orb : Byte) {b : Beam} (hz : b.zsh.toNat ≤ 127) (hv : b.vi.toNat ≤ 127)
    (hl : b.beyondLimit p = false) (ht : b.tr = true → inBounds p b.x0 b.y0 = true ∧ inBounds p b.x1 b.y1 = true) :
    (b.sampleUpdate orb).Inv p := by
  have hz' : (b.sampleUpdate orb).zsh.toNat ≤ 127 := by
    rcases muxUpdate_cases orb b with e | e | e | e <;> simp only [sampleUpdate, e, derive]
    · exact hz
    · exact hz
    · exact hz
    · exact intensityOf_le _
  obtain ⟨hc, hx, hy⟩ := sampleUpdate_derived orb b
  have hf := sampleUpdate_frame orb b
  refine ⟨hz', ?_, hc, hx, hy, ?_, ?_⟩
  · rw [hf]; exact hv
  · rw [hf]; exact hl
  · rw [hf]; exact ht

theorem sampleUpdate_inv {p : Params} (orb : Byte) {b : Beam} (h : b.Inv p) : (b.sampleUpdate orb).Inv p :=
  sampleUpdate_inv' orb h.1 h.2.1 h.2.2.2.2.2.1 h.2.2.2.2.2.2

theorem setX_inv {p : Params} (orb v : Byte) {b : Beam} (h : b.Inv p) : (b.setX orb v).Inv p :=
  sampleUpdate_inv' orb (b := { b with xsh := v }) h.1 h.2.1 h.2.2.2.2.2.1 h.2.2.2.2.2.2

theorem setAxis_inv {p : Params} (m : BitVec 2) (v : Byte) {b : Beam} (h : b.Inv p) : (b.setAxis m v).Inv p := h

@[simp] theorem axis_setAxis_self (m : BitVec 2) (v : Byte) (b : Beam) : (b.setAxis m v).axis m = v := by
  simp [axis, setAxis]

theorem axis_setAxis_ne {m n : BitVec 2} (v : Byte) (b : Beam) (h : m ≠ n) : (b.setAxis m v).axis n = b.axis n := by
  have : m.toNat ≠ n.toNat := fun e => h (BitVec.eq_of_toNat_eq e)
  simp [axis, setAxis, this]

/-- The state machine's cases (R329 to R331). -/
theorem traceFsm_cases (p : Params) (blank : Bool) (v : Int × Int) (b : Beam) :
    b.traceFsm p blank v = (b, none)
    ∨ (inBounds p b.x b.y = true ∧ b.tr = false ∧ b.traceFsm p blank v = (b.startVector v, none))
    ∨ (b.tr = true ∧ b.traceFsm p blank v = ({ b with tr := false }, some b.record))
    ∨ (inBounds p b.x b.y = true ∧ b.tr = true ∧ b.traceFsm p blank v = (b.startVector v, some b.record)) := by
  cases ht : b.tr <;> cases blank <;> cases hi : inBounds p b.x b.y <;> cases hc : b.changed v <;>
    simp [traceFsm, ht, hi, hc]

/-- The state machine leaves the position and the samples. -/
theorem traceFsm_frame (p : Params) (blank : Bool) (v : Int × Int) (b : Beam) :
    (b.traceFsm p blank v).1.x = b.x ∧ (b.traceFsm p blank v).1.y = b.y ∧ (b.traceFsm p blank v).1.zsh = b.zsh
    ∧ (b.traceFsm p blank v).1.xsh = b.xsh ∧ (b.traceFsm p blank v).1.rsh = b.rsh ∧ (b.traceFsm p blank v).1.ysh = b.ysh
    ∧ (b.traceFsm p blank v).1.jsh = b.jsh ∧ (b.traceFsm p blank v).1.j = b.j ∧ (b.traceFsm p blank v).1.cmp = b.cmp
    ∧ (b.traceFsm p blank v).1.dx = b.dx ∧ (b.traceFsm p blank v).1.dy = b.dy := by
  rcases traceFsm_cases p blank v b with e | ⟨-, -, e⟩ | ⟨-, e⟩ | ⟨-, -, e⟩ <;> rw [e] <;> simp [startVector]

/-- The extension writes the end point only (R333). -/
theorem extend_cases (p : Params) (b : Beam) :
    b.extend p = b ∨ (b.tr = true ∧ inBounds p b.x b.y = true ∧ b.extend p = { b with x1 := b.x, y1 := b.y }) := by
  cases ht : b.tr <;> cases hi : inBounds p b.x b.y <;> simp [extend, ht, hi]

/-- Where the beam is after a step, before the guard (R328, R332). -/
theorem advance_position (p : Params) (c : Controller) (b : Beam) :
    (b.advance p c).1.x = b.x + (velocity p c (b.sampleUpdate c.orb)).1
    ∧ (b.advance p c).1.y = b.y + (velocity p c (b.sampleUpdate c.orb)).2 := by
  have hf := traceFsm_frame p c.blankSignal (velocity p c (b.sampleUpdate c.orb)) (b.sampleUpdate c.orb)
  have hx : (b.sampleUpdate c.orb).x = b.x := by rw [sampleUpdate_frame]
  have hy : (b.sampleUpdate c.orb).y = b.y := by rw [sampleUpdate_frame]
  simp only [advance]
  rcases extend_cases p (((b.sampleUpdate c.orb).traceFsm p c.blankSignal (velocity p c (b.sampleUpdate c.orb))).1.integrate
    (velocity p c (b.sampleUpdate c.orb))) with e | ⟨-, -, e⟩ <;> rw [e] <;> simp [integrate, hf, hx, hy]

/-- A step moves each coordinate by at most 255, or to the centre (R326, R328, 10_state.md R53). -/
theorem advance_bound (p : Params) (c : Controller) (b : Beam) :
    ((b.advance p c).1.x = p.centerX ∧ (b.advance p c).1.y = p.centerY)
    ∨ (((b.advance p c).1.x - b.x).natAbs ≤ 255 ∧ ((b.advance p c).1.y - b.y).natAbs ≤ 255) := by
  obtain ⟨hx, hy⟩ := advance_position p c b
  obtain ⟨h1, h2⟩ := sampleUpdate_delta_le c.orb b
  have px : (b.sampleUpdate c.orb).x = b.x := by rw [sampleUpdate_frame]
  have py : (b.sampleUpdate c.orb).y = b.y := by rw [sampleUpdate_frame]
  rw [hx, hy]
  unfold velocity
  rw [px, py]
  split
  · exact .inl ⟨by simp, by simp⟩
  · right
    split
    · simp; omega
    · simp

/-- A step keeps everything of the invariant but the position limit, which the guard then tests; a record it emits is
inside the display with an intensity in 0..127 (R329 to R333, 10_state.md R56). -/
theorem advance_inv (p : Params) (c : Controller) {b : Beam} (h : b.Inv p) :
    ((b.advance p c).1.beyondLimit p = false → (b.advance p c).1.Inv p) ∧ ∀ v ∈ (b.advance p c).2, v.Inv p := by
  have h1 := sampleUpdate_inv c.orb h
  simp only [advance]
  generalize b.sampleUpdate c.orb = b1 at h1 ⊢
  generalize velocity p c b1 = v
  obtain ⟨hz, hv, hc, hx, hy, -, ht⟩ := h1
  rcases traceFsm_cases p c.blankSignal v b1 with e | ⟨hi, -, e⟩ | ⟨hr, e⟩ | ⟨hi, hr, e⟩ <;> rw [e]
  · refine ⟨fun hl => ?_, by simp⟩
    rcases extend_cases p (b1.integrate v) with e' | ⟨-, hi', e'⟩ <;> rw [e'] at hl ⊢
    · exact ⟨hz, hv, hc, hx, hy, hl, ht⟩
    · exact ⟨hz, hv, hc, hx, hy, hl, fun r => ⟨(ht r).1, hi'⟩⟩
  · refine ⟨fun hl => ?_, by simp⟩
    rcases extend_cases p ((b1.startVector v).integrate v) with e' | ⟨-, hi', e'⟩ <;> rw [e'] at hl ⊢
    · exact ⟨hz, hz, hc, hx, hy, hl, fun _ => ⟨hi, hi⟩⟩
    · exact ⟨hz, hz, hc, hx, hy, hl, fun _ => ⟨hi, hi'⟩⟩
  · refine ⟨fun hl => ?_, fun w hw => ?_⟩
    · rcases extend_cases p (({ b1 with tr := false } : Beam).integrate v) with e' | ⟨hr', -, -⟩
      · rw [e'] at hl ⊢
        exact ⟨hz, hv, hc, hx, hy, hl, fun r => absurd r (by simp [integrate])⟩
      · exact absurd hr' (by simp [integrate])
    · obtain rfl : b1.record = w := by simpa using hw
      exact ⟨(ht hr).1, (ht hr).2, hv⟩
  · refine ⟨fun hl => ?_, fun w hw => ?_⟩
    · rcases extend_cases p ((b1.startVector v).integrate v) with e' | ⟨-, hi', e'⟩ <;> rw [e'] at hl ⊢
      · exact ⟨hz, hz, hc, hx, hy, hl, fun _ => ⟨hi, hi⟩⟩
      · exact ⟨hz, hz, hc, hx, hy, hl, fun _ => ⟨hi, hi'⟩⟩
    · obtain rfl : b1.record = w := by simpa using hw
      exact ⟨(ht hr).1, (ht hr).2, hv⟩

end Beam

end Sys2Proof.Machine
end

