-- ==== Sys2Proof/Laws/Bus.lean ====
section
/-! SUPPORT. What the Controller window's bus decode gives (20_memory.md R82): the 16 addresses from `CTRL_BASE` in order, and
every further routed address by its low 4 bits. -/

namespace Sys2Proof.Machine

/-- The address `CTRL_BASE + k` is in the window, at offset k. -/
theorem ctrlBase_add (k : BitVec 4) :
    inCtrlWindow (Config.ctrlBase + k.toNat) = true ∧ ctrlOffset (Config.ctrlBase + k.toNat) = k := by
  have hk := k.isLt
  constructor
  · have : (16 * Config.ctrlBlock + k.toNat) / 16 = Config.ctrlBlock := by omega
    simp [inCtrlWindow, Config.ctrlBase, this]
  · apply BitVec.eq_of_toNat_eq
    simp only [ctrlOffset, Config.ctrlBase, BitVec.toNat_ofNat]
    omega

/-- A read at `CTRL_BASE + k` is the Controller read k. -/
theorem memRead_ctrlBase_add (k : BitVec 4) : memRead (Config.ctrlBase + k.toNat) = some (ctrlReadInstr k) := by
  simp [memRead, ctrlBase_add k]

/-- A write at `CTRL_BASE + k` is the Controller write k. -/
theorem memWrite_ctrlBase_add (k : BitVec 4) (v : Byte) :
    memWrite (Config.ctrlBase + k.toNat) v = some (ctrlWriteInstr k v) := by
  simp [memWrite, ctrlBase_add k]

/-- At every further address the collaborator routes to the window, the low 4 bits select the offset. -/
theorem memAccess_mirror {addr : Nat} (h : Config.ctrlMirror addr = true) (v : Byte) :
    memRead addr = some (ctrlReadInstr (BitVec.ofNat 4 addr))
    ∧ memWrite addr v = some (ctrlWriteInstr (BitVec.ofNat 4 addr) v) := by
  simp [memRead, memWrite, inCtrlWindow, ctrlOffset, h]

end Sys2Proof.Machine
end

