-- ==== Sys2Proof/Laws/Flags.lean ====
section
/-! SUPPORT. What the flag operations do to the flag register, bit by bit, and that they change nothing else
(40_controller_bus.md R140). -/

namespace Sys2Proof.Machine

/-- The aggregate sees the flags 6:0 only. -/
theorem irqAggregate_eq_of_flags {a b : Byte} (ier : BitVec 7) (h : a &&& 0x7F#8 = b &&& 0x7F#8) :
    irqAggregate a ier = irqAggregate b ier := by
  have e : a.extractLsb' 0 7 = b.extractLsb' 0 7 := by
    ext i hi
    have := congrArg (fun v : Byte => v.getLsbD i) h
    interval_cases i <;> simpa using this
  simp [irqAggregate, e]

/-- `IrqUpdate()` leaves bits 6:0. -/
theorem irqUpdate_low (c : Controller) : (irqUpdate c).ifr &&& 0x7F#8 = c.ifr &&& 0x7F#8 := by
  simp only [irqUpdate]
  split <;> simp [BitVec.and_or_distrib_right, BitVec.and_assoc]

/-- A flag bit below the aggregate is the one before. -/
theorem irqUpdate_flag (c : Controller) {i : Nat} (h : i < 7) : (irqUpdate c).ifr.getLsbD i = c.ifr.getLsbD i := by
  have := congrArg (fun v : Byte => v.getLsbD i) (irqUpdate_low c)
  interval_cases i <;> simpa using this

/-- Bit 7 becomes the aggregate. -/
theorem irqUpdate_bit7 (c : Controller) : (irqUpdate c).ifr.getLsbD 7 = irqAggregate c.ifr c.ier := by
  simp only [irqUpdate]
  split <;> simp_all

/-- Bit 7 is the aggregate of the new flags and enables. -/
theorem irqUpdate_aggregate (c : Controller) :
    (irqUpdate c).ifr.getLsbD 7 = irqAggregate (irqUpdate c).ifr (irqUpdate c).ier := by
  rw [irqUpdate_bit7, irqAggregate_eq_of_flags _ (irqUpdate_low c)]
  rfl

/-- `IrqUpdate()` writes the flag register only. -/
theorem irqUpdate_frame (c : Controller) : irqUpdate c = { c with ifr := (irqUpdate c).ifr } := rfl

/-- Raising flags writes the flag register only. -/
theorem raiseFlag_frame (m : Byte) (c : Controller) : raiseFlag m c = { c with ifr := (raiseFlag m c).ifr } := rfl

/-- Clearing flags writes the flag register only. -/
theorem clearFlags_frame (m : Byte) (c : Controller) : clearFlags m c = { c with ifr := (clearFlags m c).ifr } := rfl

/-- Writing the enables writes the enable and the flag register only. -/
theorem writeEnables_frame (d : Byte) (c : Controller) :
    writeEnables d c = { c with ifr := (writeEnables d c).ifr, ier := (writeEnables d c).ier } := rfl

/-- A flag after raising: it was set, or it is one of those raised. -/
theorem raiseFlag_flag (m : Byte) (c : Controller) {i : Nat} (h : i < 7) :
    (raiseFlag m c).ifr.getLsbD i = (c.ifr.getLsbD i || m.getLsbD i) := by
  rw [raiseFlag, irqUpdate_flag _ h, BitVec.getLsbD_or]

/-- A flag after clearing: it was set, and it is not one of those cleared. -/
theorem clearFlags_flag (m : Byte) (c : Controller) {i : Nat} (h : i < 7) :
    (clearFlags m c).ifr.getLsbD i = (c.ifr.getLsbD i && !m.getLsbD i) := by
  have h8 : i < 8 := by omega
  rw [clearFlags, irqUpdate_flag _ h, BitVec.getLsbD_and, BitVec.getLsbD_not]
  simp [h8]

theorem raiseFlag_aggregate (m : Byte) (c : Controller) :
    (raiseFlag m c).ifr.getLsbD 7 = irqAggregate (raiseFlag m c).ifr (raiseFlag m c).ier := irqUpdate_aggregate _

theorem clearFlags_aggregate (m : Byte) (c : Controller) :
    (clearFlags m c).ifr.getLsbD 7 = irqAggregate (clearFlags m c).ifr (clearFlags m c).ier := irqUpdate_aggregate _

theorem writeEnables_aggregate (d : Byte) (c : Controller) :
    (writeEnables d c).ifr.getLsbD 7 = irqAggregate (writeEnables d c).ifr (writeEnables d c).ier := irqUpdate_aggregate _

/-- The enable register's effect on the flags 6:0: none. -/
theorem writeEnables_flag (d : Byte) (c : Controller) {i : Nat} (h : i < 7) :
    (writeEnables d c).ifr.getLsbD i = c.ifr.getLsbD i := irqUpdate_flag _ h

end Sys2Proof.Machine
end

