-- ==== Sys2Proof/Laws/Controller.lean ====
section
/-! SUPPORT. One lemma per shared operation of the Controller: what it can do, and that it keeps the Controller's invariant
(10_state.md R32, R66). -/

namespace Sys2Proof.Machine

/-- The flags that nothing sets are among those `IrqUpdate()` leaves. -/
theorem irqUpdate_unset (c : Controller) : (irqUpdate c).ifr &&& 0x1B#8 = c.ifr &&& 0x1B#8 := by
  have h := congrArg (· &&& 0x1B#8) (irqUpdate_low c)
  simpa [BitVec.and_assoc] using h

/-- Clearing flags keeps the invariant. -/
theorem clearFlags_inv (m : Byte) {c : Controller} (hn : c.srcnt ≤ 8) (hu : c.ifr &&& 0x1B#8 = 0#8) :
    (clearFlags m c).Inv := by
  refine ⟨hn, clearFlags_aggregate m c, ?_⟩
  rw [clearFlags, irqUpdate_unset]
  have h : c.ifr &&& ~~~m &&& 0x1B#8 = c.ifr &&& 0x1B#8 &&& ~~~m := by
    rw [BitVec.and_assoc, BitVec.and_comm (~~~m), ← BitVec.and_assoc]
  simp [h, hu]

/-- Raising one of the three flags that have a source (60_exceptions.md R393) keeps the invariant. -/
theorem raiseFlag_inv {m : Byte} (hm : m &&& 0x1B#8 = 0#8) {c : Controller} (hn : c.srcnt ≤ 8) (hu : c.ifr &&& 0x1B#8 = 0#8) :
    (raiseFlag m c).Inv := by
  refine ⟨hn, raiseFlag_aggregate m c, ?_⟩
  rw [raiseFlag, irqUpdate_unset]
  simp [BitVec.and_or_distrib_right, hu, hm]

/-- Writing the enables keeps the invariant. -/
theorem writeEnables_inv (d : Byte) {c : Controller} (h : c.Inv) : (writeEnables d c).Inv :=
  ⟨h.1, writeEnables_aggregate d c, (irqUpdate_unset _).trans h.2.2⟩

namespace Controller

/-- The invariant is about three fields only. -/
theorem Inv.congr {c d : Controller} (h : c.Inv) (hn : d.srcnt = c.srcnt) (hf : d.ifr = c.ifr) (he : d.ier = c.ier) :
    d.Inv := by
  rw [Controller.Inv, hn, hf, he]
  exact h

theorem t1Start_inv {c : Controller} (h : c.Inv) : c.t1Start.Inv := clearFlags_inv _ h.1 h.2.2

theorem writeT1LatchHigh_inv (p : Params) (d : Byte) {c : Controller} (h : c.Inv) : (c.writeT1LatchHigh p d).Inv := by
  unfold writeT1LatchHigh
  split
  · exact t1Start_inv (c := { c with t1lh := d }) h
  · exact h

theorem t1Stop_inv {c : Controller} (h : c.Inv) : c.t1Stop.Inv := clearFlags_inv _ h.1 h.2.2

theorem t2Start_inv (d : Byte) {c : Controller} (h : c.Inv) : (c.t2Start d).Inv := clearFlags_inv _ h.1 h.2.2

theorem t2Stop_inv {c : Controller} (h : c.Inv) : c.t2Stop.Inv := clearFlags_inv _ h.1 h.2.2

theorem srAccess_inv {c : Controller} (h : c.Inv) : c.srAccess.Inv := clearFlags_inv _ (Nat.zero_le 8) h.2.2

/-- `Timer1Step()` says no more than this (R201): it writes the counter, the toggle, the arm and the flag register. -/
theorem timer1Step_cases (c : Controller) :
    (c.t1on = false ∧ c.timer1Step = c)
    ∨ (c.t1on = true ∧ c.t1c ≠ 0#16 ∧ c.timer1Step = { c with t1c := c.t1c - 1#16 })
    ∨ (c.t1on = true ∧ c.t1c = 0#16 ∧ acrT1Free c.acr = true
        ∧ c.timer1Step = raiseFlag flagT1 { c with t1c := timerValue c.t1lh c.t1ll, t1pb7 := !c.t1pb7 })
    ∨ (c.t1on = true ∧ c.t1c = 0#16 ∧ acrT1Free c.acr = false ∧ c.t1arm = true
        ∧ c.timer1Step = raiseFlag flagT1 { c with t1c := 0xFFFF#16, t1pb7 := true, t1arm := false })
    ∨ (c.t1on = true ∧ c.t1c = 0#16 ∧ acrT1Free c.acr = false ∧ c.t1arm = false
        ∧ c.timer1Step = { c with t1c := 0xFFFF#16 }) := by
  have hw : c.t1c - 1#16 = 0xFFFF#16 ↔ c.t1c = 0#16 := by
    constructor <;> intro h <;> bv_omega
  cases hon : c.t1on
  · exact .inl ⟨rfl, by simp [timer1Step, hon]⟩
  by_cases hz : c.t1c = 0#16
  · have hu : c.t1c - 1#16 = 0xFFFF#16 := hw.2 hz
    cases hf : acrT1Free c.acr
    · cases ha : c.t1arm
      · exact .inr (.inr (.inr (.inr ⟨rfl, hz, rfl, rfl, by simp [timer1Step, hon, hu, hf, ha]⟩)))
      · exact .inr (.inr (.inr (.inl ⟨rfl, hz, rfl, rfl, by simp [timer1Step, hon, hu, hf, ha]⟩)))
    · exact .inr (.inr (.inl ⟨rfl, hz, rfl, by simp [timer1Step, hon, hu, hf]⟩))
  · have hu : ¬ c.t1c - 1#16 = 0xFFFF#16 := fun h => hz (hw.1 h)
    exact .inr (.inl ⟨rfl, hz, by simp [timer1Step, hon, hu]⟩)

/-- `Timer2Step()` (R202). -/
theorem timer2Step_cases (c : Controller) :
    ((c.t2on = false ∨ acrT2Pulse c.acr = true) ∧ c.timer2Step = c)
    ∨ (c.t2on = true ∧ acrT2Pulse c.acr = false ∧ (c.t2c ≠ 0#16 ∨ c.t2arm = false)
        ∧ c.timer2Step = { c with t2c := c.t2c - 1#16 })
    ∨ (c.t2on = true ∧ acrT2Pulse c.acr = false ∧ c.t2c = 0#16 ∧ c.t2arm = true
        ∧ c.timer2Step = raiseFlag flagT2 { c with t2c := 0xFFFF#16, t2arm := false }) := by
  have hw : c.t2c - 1#16 = 0xFFFF#16 ↔ c.t2c = 0#16 := by
    constructor <;> intro h <;> bv_omega
  cases hon : c.t2on
  · exact .inl ⟨.inl rfl, by simp [timer2Step, hon]⟩
  cases hp : acrT2Pulse c.acr
  · by_cases hz : c.t2c = 0#16
    · have hu : c.t2c - 1#16 = 0xFFFF#16 := hw.2 hz
      cases ha : c.t2arm
      · exact .inr (.inl ⟨rfl, rfl, .inr rfl, by simp [timer2Step, hon, hp, ha]⟩)
      · exact .inr (.inr ⟨rfl, rfl, hz, rfl, by simp [timer2Step, hon, hp, ha, hu]⟩)
    · have hu : ¬ c.t2c - 1#16 = 0xFFFF#16 := fun h => hz (hw.1 h)
      exact .inr (.inl ⟨rfl, rfl, .inl hz, by simp [timer2Step, hon, hp, hu]⟩)
  · exact .inl ⟨.inr rfl, by simp [timer2Step, hon, hp]⟩

/-- `DividerStep()` on an underflow and off it (R203). -/
theorem dividerStep_cases (c : Controller) :
    (c.srdiv = 0#8 ∧ c.dividerStep = ({ c with srdiv := c.t2ll, srph := !c.srph }, c.srph))
    ∨ (c.srdiv ≠ 0#8 ∧ c.dividerStep = ({ c with srdiv := c.srdiv - 1#8 }, false)) := by
  have hw : c.srdiv - 1#8 = 0xFF#8 ↔ c.srdiv = 0#8 := by
    constructor <;> intro h <;> bv_omega
  by_cases hz : c.srdiv = 0#8
  · exact .inl ⟨hz, by simp [dividerStep, hw.2 hz]⟩
  · have hu : ¬ c.srdiv - 1#8 = 0xFF#8 := fun h => hz (hw.1 h)
    exact .inr ⟨hz, by simp [dividerStep, hu]⟩

/-- A shift mode does nothing, or shifts with or without counting (R205 to R212). -/
theorem shiftByMode_cases (p : Bool) (c : Controller) :
    c.shiftByMode p = c ∨ c.shiftByMode p = c.shiftIn ∨ c.shiftByMode p = c.shiftOut
    ∨ c.shiftByMode p = c.shiftOut.countShift := by
  unfold shiftByMode
  cases shiftMode c.acr <;> cases p <;> simp

/-- The flags and enables are not the shifter's, and it counts at most one bit (R205 to R212). -/
theorem shiftByMode_spec (p : Bool) (c : Controller) :
    ((c.shiftByMode p).srcnt = c.srcnt ∨ (c.shiftByMode p).srcnt = c.srcnt + 1)
    ∧ c.shiftByMode p
      = { c with sr := (c.shiftByMode p).sr, srcnt := (c.shiftByMode p).srcnt, cb2s := (c.shiftByMode p).cb2s } := by
  rcases shiftByMode_cases p c with h | h | h | h <;> rw [h] <;> simp [shiftIn, shiftOut, countShift]

theorem timer1Step_inv {c : Controller} (h : c.Inv) : c.timer1Step.Inv := by
  rcases timer1Step_cases c with ⟨-, e⟩ | ⟨-, -, e⟩ | ⟨-, -, -, e⟩ | ⟨-, -, -, -, e⟩ | ⟨-, -, -, -, e⟩ <;> rw [e]
  · exact h
  · exact h
  · exact raiseFlag_inv (by decide) h.1 h.2.2
  · exact raiseFlag_inv (by decide) h.1 h.2.2
  · exact h

theorem timer2Step_inv {c : Controller} (h : c.Inv) : c.timer2Step.Inv := by
  rcases timer2Step_cases c with ⟨-, e⟩ | ⟨-, -, -, e⟩ | ⟨-, -, -, -, e⟩ <;> rw [e]
  · exact h
  · exact h
  · exact raiseFlag_inv (by decide) h.1 h.2.2

theorem dividerStep_inv {c : Controller} (h : c.Inv) : c.dividerStep.1.Inv := by
  rcases dividerStep_cases c with ⟨-, e⟩ | ⟨-, e⟩ <;> rw [e] <;> exact h

/-- `ShiftStep(pulse)` (R204, R213). -/
theorem shiftStep_cases (p : Bool) (c : Controller) :
    (8 ≤ c.srcnt ∧ c.shiftStep p = c)
    ∨ (c.srcnt < 8 ∧ (c.shiftByMode p).srcnt ≠ 8 ∧ c.shiftStep p = c.shiftByMode p)
    ∨ (c.srcnt < 8 ∧ (c.shiftByMode p).srcnt = 8 ∧ c.shiftStep p = raiseFlag flagSR (c.shiftByMode p)) := by
  by_cases hn : c.srcnt < 8
  · by_cases he : (c.shiftByMode p).srcnt = 8
    · exact .inr (.inr ⟨hn, he, by simp [shiftStep, hn, he]⟩)
    · exact .inr (.inl ⟨hn, he, by simp [shiftStep, hn, he]⟩)
  · exact .inl ⟨by omega, by simp [shiftStep, hn]⟩

theorem shiftStep_inv (p : Bool) {c : Controller} (h : c.Inv) : (c.shiftStep p).Inv := by
  obtain ⟨hn, hf⟩ := shiftByMode_spec p c
  have hu : (c.shiftByMode p).ifr = c.ifr := by rw [hf]
  have he : (c.shiftByMode p).ier = c.ier := by rw [hf]
  rcases shiftStep_cases p c with ⟨-, e⟩ | ⟨hl, h8, e⟩ | ⟨hl, h8, e⟩ <;> rw [e]
  · exact h
  · refine ⟨by omega, ?_, ?_⟩
    · rw [hu, he]; exact h.2.1
    · rw [hu]; exact h.2.2
  · exact raiseFlag_inv (by decide) (by omega) (by rw [hu]; exact h.2.2)

/-- `PhaseA()` keeps the invariant (R216). -/
theorem phaseA_inv {c : Controller} (h : c.Inv) : c.phaseA.Inv :=
  shiftStep_inv _ (dividerStep_inv (timer2Step_inv (timer1Step_inv h)))

/-- `PhaseB()` keeps the invariant (R215). -/
theorem phaseB_inv {c : Controller} (h : c.Inv) : c.phaseB.Inv := h.congr rfl rfl rfl

theorem line1Access_eq (p : Params) (c : Controller) :
    c.line1Access p = { c with ca2 := if hsLow p (line1Field c.pcr) then false else c.ca2 } := by
  unfold line1Access
  split <;> simp_all

theorem line2Access_eq (p : Params) (c : Controller) :
    c.line2Access p = { c with cb2h := if hsLow p (line2Field c.pcr) then false else c.cb2h } := by
  unfold line2Access
  split <;> simp_all

theorem line1Access_inv (p : Params) {c : Controller} (h : c.Inv) : (c.line1Access p).Inv := by
  rw [line1Access_eq]
  exact h

theorem line2Access_inv (p : Params) {c : Controller} (h : c.Inv) : (c.line2Access p).Inv := by
  rw [line2Access_eq]
  exact h

/-- The elements Phase A can write (R216): everything else of the Controller is as before. -/
theorem phaseA_frame (c : Controller) :
    c.phaseA = { c with
      t1c := c.phaseA.t1c, t1arm := c.phaseA.t1arm, t1pb7 := c.phaseA.t1pb7
      t2c := c.phaseA.t2c, t2arm := c.phaseA.t2arm
      sr := c.phaseA.sr, srcnt := c.phaseA.srcnt, srdiv := c.phaseA.srdiv, srph := c.phaseA.srph
      ifr := c.phaseA.ifr, cb2s := c.phaseA.cb2s } := by
  have h1 : c.timer1Step = { c with
      t1c := c.timer1Step.t1c, t1arm := c.timer1Step.t1arm, t1pb7 := c.timer1Step.t1pb7, ifr := c.timer1Step.ifr } := by
    rcases timer1Step_cases c with ⟨-, e⟩ | ⟨-, -, e⟩ | ⟨-, -, -, e⟩ | ⟨-, -, -, -, e⟩ | ⟨-, -, -, -, e⟩ <;> rw [e] <;> rfl
  have h2 : ∀ d : Controller, d.timer2Step = { d with
      t2c := d.timer2Step.t2c, t2arm := d.timer2Step.t2arm, ifr := d.timer2Step.ifr } := by
    intro d
    rcases timer2Step_cases d with ⟨-, e⟩ | ⟨-, -, -, e⟩ | ⟨-, -, -, -, e⟩ <;> rw [e] <;> rfl
  have h3 : ∀ d : Controller, d.dividerStep.1 = { d with srdiv := d.dividerStep.1.srdiv, srph := d.dividerStep.1.srph } := by
    intro d
    rcases dividerStep_cases d with ⟨-, e⟩ | ⟨-, e⟩ <;> rw [e]
  have h4 : ∀ (p : Bool) (d : Controller), d.shiftStep p = { d with
      sr := (d.shiftStep p).sr, srcnt := (d.shiftStep p).srcnt, cb2s := (d.shiftStep p).cb2s, ifr := (d.shiftStep p).ifr } := by
    intro p d
    rcases shiftStep_cases p d with ⟨-, e⟩ | ⟨-, -, e⟩ | ⟨-, -, e⟩ <;> rw [e]
    all_goals rcases shiftByMode_cases p d with h | h | h | h <;> rw [h] <;> rfl
  simp only [phaseA]
  generalize c.timer1Step.timer2Step.dividerStep.2 = p
  rw [h4 p, h3, h2, h1]

end Controller

end Sys2Proof.Machine
end

