-- ==== Sys2Proof/Laws/State.lean ====
section
/-! SUPPORT. One lemma per field of State per update of Machine/Ops.lean, each true by definition, so that no later proof
unfolds an update. -/

namespace Sys2Proof.Machine.State

@[simp] theorem mapC_cfg (f : Controller → Controller) (s : State) : (s.mapC f).cfg = s.cfg := rfl
@[simp] theorem mapC_c (f : Controller → Controller) (s : State) : (s.mapC f).c = f s.c := rfl
@[simp] theorem mapC_syn (f : Controller → Controller) (s : State) : (s.mapC f).syn = s.syn := rfl
@[simp] theorem mapC_b (f : Controller → Controller) (s : State) : (s.mapC f).b = s.b := rfl
@[simp] theorem mapC_g (f : Controller → Controller) (s : State) : (s.mapC f).g = s.g := rfl
@[simp] theorem mapC_out (f : Controller → Controller) (s : State) : (s.mapC f).out = s.out := rfl
@[simp] theorem mapC_pending (f : Controller → Controller) (s : State) : (s.mapC f).pending = s.pending := rfl

@[simp] theorem mapSyn_cfg (f : Synth → Synth) (s : State) : (s.mapSyn f).cfg = s.cfg := rfl
@[simp] theorem mapSyn_c (f : Synth → Synth) (s : State) : (s.mapSyn f).c = s.c := rfl
@[simp] theorem mapSyn_syn (f : Synth → Synth) (s : State) : (s.mapSyn f).syn = f s.syn := rfl
@[simp] theorem mapSyn_b (f : Synth → Synth) (s : State) : (s.mapSyn f).b = s.b := rfl
@[simp] theorem mapSyn_g (f : Synth → Synth) (s : State) : (s.mapSyn f).g = s.g := rfl
@[simp] theorem mapSyn_out (f : Synth → Synth) (s : State) : (s.mapSyn f).out = s.out := rfl
@[simp] theorem mapSyn_pending (f : Synth → Synth) (s : State) : (s.mapSyn f).pending = s.pending := rfl

@[simp] theorem mapB_cfg (f : Beam → Beam) (s : State) : (s.mapB f).cfg = s.cfg := rfl
@[simp] theorem mapB_c (f : Beam → Beam) (s : State) : (s.mapB f).c = s.c := rfl
@[simp] theorem mapB_syn (f : Beam → Beam) (s : State) : (s.mapB f).syn = s.syn := rfl
@[simp] theorem mapB_b (f : Beam → Beam) (s : State) : (s.mapB f).b = f s.b := rfl
@[simp] theorem mapB_g (f : Beam → Beam) (s : State) : (s.mapB f).g = s.g := rfl
@[simp] theorem mapB_out (f : Beam → Beam) (s : State) : (s.mapB f).out = s.out := rfl
@[simp] theorem mapB_pending (f : Beam → Beam) (s : State) : (s.mapB f).pending = s.pending := rfl

@[simp] theorem mapG_cfg (f : Glue → Glue) (s : State) : (s.mapG f).cfg = s.cfg := rfl
@[simp] theorem mapG_c (f : Glue → Glue) (s : State) : (s.mapG f).c = s.c := rfl
@[simp] theorem mapG_syn (f : Glue → Glue) (s : State) : (s.mapG f).syn = s.syn := rfl
@[simp] theorem mapG_b (f : Glue → Glue) (s : State) : (s.mapG f).b = s.b := rfl
@[simp] theorem mapG_g (f : Glue → Glue) (s : State) : (s.mapG f).g = f s.g := rfl
@[simp] theorem mapG_out (f : Glue → Glue) (s : State) : (s.mapG f).out = s.out := rfl
@[simp] theorem mapG_pending (f : Glue → Glue) (s : State) : (s.mapG f).pending = s.pending := rfl

@[simp] theorem give_cfg (o : Output) (s : State) : (s.give o).cfg = s.cfg := rfl
@[simp] theorem give_c (o : Output) (s : State) : (s.give o).c = s.c := rfl
@[simp] theorem give_syn (o : Output) (s : State) : (s.give o).syn = s.syn := rfl
@[simp] theorem give_b (o : Output) (s : State) : (s.give o).b = s.b := rfl
@[simp] theorem give_g (o : Output) (s : State) : (s.give o).g = s.g := rfl
@[simp] theorem give_out (o : Output) (s : State) : (s.give o).out = s.out ++ [o] := rfl
@[simp] theorem give_pending (o : Output) (s : State) : (s.give o).pending = s.pending := rfl

@[simp] theorem emit_cfg (v : VecRec) (s : State) : (s.emit v).cfg = s.cfg := rfl
@[simp] theorem emit_c (v : VecRec) (s : State) : (s.emit v).c = s.c := rfl
@[simp] theorem emit_syn (v : VecRec) (s : State) : (s.emit v).syn = s.syn := rfl
@[simp] theorem emit_b (v : VecRec) (s : State) : (s.emit v).b = s.b := rfl
@[simp] theorem emit_out (v : VecRec) (s : State) : (s.emit v).out = s.out ++ [.line v] := rfl
@[simp] theorem emit_pending (v : VecRec) (s : State) : (s.emit v).pending = s.pending := rfl
@[simp] theorem emit_sel (v : VecRec) (s : State) : (s.emit v).g.sel = s.g.sel := rfl
@[simp] theorem emit_frame (v : VecRec) (s : State) : (s.emit v).g.frame = s.g.frame := rfl
@[simp] theorem emit_vec (v : VecRec) (s : State) : (s.emit v).g.vec = s.g.vec ++ [v] := rfl

end Sys2Proof.Machine.State
end

