-- ==== Sys2Proof/Laws/Synth.lean ====
section
/-! SUPPORT. The Synthesizer's registers and voices read after a write, and one lemma per shared operation: what it changes,
and that it keeps the ranges (10_state.md R66) and the derived elements (10_state.md R40). -/

namespace Sys2Proof.Machine

/-! ### Operands stay in range (30_encoding.md R112, R113) -/

theorem tonePeriod_pos (f c : Byte) : 1 ≤ tonePeriod f c := Nat.le_max_left ..

theorem tonePeriod_le (f c : Byte) : tonePeriod f c ≤ 4095 := by
  have h1 := f.isLt
  have h2 := (c.extractLsb' 0 4).isLt
  unfold tonePeriod
  omega

theorem noisePeriod_pos (d : Byte) : 1 ≤ noisePeriod d := Nat.le_max_left ..

theorem noisePeriod_le (d : Byte) : noisePeriod d ≤ 31 := by
  have h := (d.extractLsb' 0 5).isLt
  unfold noisePeriod
  omega

theorem envPeriod_pos (f c : Byte) : 1 ≤ envPeriod f c := Nat.le_max_left ..

theorem envPeriod_le (f c : Byte) : envPeriod f c ≤ 131070 := by
  have h1 := f.isLt
  have h2 := c.isLt
  unfold envPeriod
  omega

/-- R7's own parameter values meet R60. -/
theorem thisSpec_valid : Params.thisSpec.Valid := by decide

/-- Every entry of a volume table that `Params.Valid` admits is at most full scale, its entry 31. -/
theorem Params.vol_le {p : Params} (hp : p.Valid) (i : BitVec 5) : p.vol i ≤ p.volTable[31] := by
  have hi := i.isLt
  obtain ⟨h0, -, hm, -⟩ := hp
  have h1 : p.volTable[1] ≤ p.volTable[31] := hm 1 31 (by decide) (by decide)
  by_cases hz : i.toNat = 0
  · have : p.vol i = p.volTable[0] := by simp [Params.vol, hz]
    omega
  · exact hm ⟨i.toNat, hi⟩ 31 (by simp only; omega) (by simp only; omega)

theorem fixedVolume_le {p : Params} (hp : p.Valid) (d : Byte) : fixedVolume p d ≤ p.volTable[31] := Params.vol_le hp _

/-- The attack mask of a shape byte is 0 or 31 (R114). -/
theorem decodeShape_attack (d : Byte) : (decodeShape d).attack = 0#5 ∨ (decodeShape d).attack = 31#5 := by
  unfold decodeShape
  cases d.getLsbD 2 <;> cases d.getLsbD 3 <;> simp

namespace Synth

variable {p : Params} {top : Nat}

/-! ### Registers and voices -/

/-- A property of the 16 registers. -/
theorem forall_register {P : BitVec 4 → Prop} (h0 : P 0#4) (h1 : P 1#4) (h2 : P 2#4) (h3 : P 3#4) (h4 : P 4#4) (h5 : P 5#4) (h6 : P 6#4) (h7 : P 7#4)
    (h8 : P 8#4) (h9 : P 9#4) (h10 : P 10#4) (h11 : P 11#4) (h12 : P 12#4) (h13 : P 13#4) (h14 : P 14#4) (h15 : P 15#4) (k : BitVec 4) :
    P k := by
  change P (BitVec.ofFin k.toFin)
  generalize k.toFin = f
  fin_cases f
  exacts [h0, h1, h2, h3, h4, h5, h6, h7, h8, h9, h10, h11, h12, h13, h14, h15]

@[simp] theorem reg_setReg_self (s : Synth) (k : BitVec 4) (d : Byte) : (s.setReg k d).reg k = d := by
  simp [reg, setReg]

theorem reg_setReg_ne (s : Synth) {k l : BitVec 4} (d : Byte) (h : k ≠ l) : (s.setReg k d).reg l = s.reg l := by
  have : k.toNat ≠ l.toNat := fun e => h (BitVec.eq_of_toNat_eq e)
  simp [reg, setReg, this]

theorem reg_setReg (s : Synth) (k l : BitVec 4) (d : Byte) :
    (s.setReg k d).reg l = if k = l then d else s.reg l := by
  split
  · next h => subst h; exact reg_setReg_self ..
  · next h => exact reg_setReg_ne s d h

@[simp] theorem reg_mapVoice (s : Synth) (k : Fin 3) (f : Voice → Voice) (l : BitVec 4) :
    (s.mapVoice k f).reg l = s.reg l := by
  match k with
  | 0 | 1 | 2 => rfl

@[simp] theorem reg_mapVoices (s : Synth) (f : Fin 3 → Voice → Voice) (l : BitVec 4) :
    (s.mapVoices f).reg l = s.reg l := rfl

@[simp] theorem voice_mapVoices (s : Synth) (f : Fin 3 → Voice → Voice) (k : Fin 3) :
    (s.mapVoices f).voice k = f k (s.voice k) := by
  match k with
  | 0 | 1 | 2 => rfl

/-- A voice after a change to voice k. -/
theorem voice_mapVoice (s : Synth) (k l : Fin 3) (f : Voice → Voice) :
    (s.mapVoice k f).voice l = if k = l then f (s.voice l) else s.voice l := by
  match k, l with
  | 0, 0 | 0, 1 | 0, 2 | 1, 0 | 1, 1 | 1, 2 | 2, 0 | 2, 1 | 2, 2 => rfl

/-! ### Counters and the noise register -/

/-- A moved counter is at least 1 (R241, R248, R254; 92_eei_decisions.md D19). -/
theorem movedCount_pos (c : Int) (p q : Nat) : 1 ≤ movedCount c p q := by
  unfold movedCount
  simp only
  split <;> omega

/-- A moved counter keeps its distance to the period, or is 1 (R241). -/
theorem movedCount_cases (c : Int) (p q : Nat) :
    movedCount c p q = c + (q - p) ∨ (c + ((q : Int) - p) ≤ 0 ∧ movedCount c p q = 1) := by
  unfold movedCount
  simp only
  split
  · exact .inr ⟨by assumption, rfl⟩
  · exact .inl rfl

/-- A non-zero noise register stays non-zero (R282). -/
theorem nextRng_ne_zero {g : BitVec 17} (h : g ≠ 0#17) : nextRng g ≠ 0#17 := by
  intro e
  apply h
  have b : ∀ i, (nextRng g).getLsbD i = false := by simp [e]
  cases h0 : g.getLsbD 0
  · apply BitVec.eq_of_getLsbD_eq
    intro i hi
    match i with
    | 0 => simpa using h0
    | i + 1 =>
      have := b i
      have h17 : i < 17 := by omega
      have h18 : 1 + i < 18 := by omega
      simp only [nextRng, h0, Bool.false_eq_true, if_false, BitVec.getLsbD_setWidth, BitVec.getLsbD_ushiftRight, h17, h18,
        decide_true, Bool.true_and] at this
      simpa [Nat.add_comm] using this
  · have := b 16
    simp [nextRng, h0] at this

theorem toneStep_inv {v : Voice} (h : v.Inv top) : (toneStep v).Inv top := by
  obtain ⟨h1, h2, h3, h4⟩ := h
  simp only [toneStep]
  split
  · exact ⟨h1, h2, by simp only; omega, h4⟩
  · exact ⟨h1, h2, by simp only; omega, h4⟩

theorem followEnv_inv {e : Nat} (he : e ≤ top) {v : Voice} (h : v.Inv top) : (followEnv e v).Inv top := by
  unfold followEnv
  split
  · exact ⟨h.1, h.2.1, h.2.2.1, he⟩
  · exact h

theorem retune_inv {q : Nat} (h1 : 1 ≤ q) (h2 : q ≤ 4095) {v : Voice} (h : v.Inv top) : (retune q v).Inv top :=
  ⟨h1, h2, movedCount_pos .., h.2.2.2⟩

/-! ### The ranges are kept -/

theorem setReg_inv (k : BitVec 4) (d : Byte) {s : Synth} (h : s.Inv p) : (s.setReg k d).Inv p := h

theorem mapVoice_inv (k : Fin 3) {f : Voice → Voice} (hf : ∀ v : Voice, v.Inv p.volTable[31] → (f v).Inv p.volTable[31]) {s : Synth} (h : s.Inv p) :
    (s.mapVoice k f).Inv p := by
  obtain ⟨ha, hb, hc, hr⟩ := h
  match k with
  | 0 => exact ⟨hf _ ha, hb, hc, hr⟩
  | 1 => exact ⟨ha, hf _ hb, hc, hr⟩
  | 2 => exact ⟨ha, hb, hf _ hc, hr⟩

theorem mapVoices_inv {f : Fin 3 → Voice → Voice} (hf : ∀ k (v : Voice), v.Inv p.volTable[31] → (f k v).Inv p.volTable[31]) {s : Synth} (h : s.Inv p) :
    (s.mapVoices f).Inv p :=
  ⟨hf _ _ h.1, hf _ _ h.2.1, hf _ _ h.2.2.1, h.2.2.2⟩

theorem tonePeriodUpdate_inv (k : Fin 3) (f c : BitVec 4) {s : Synth} (h : s.Inv p) : (s.tonePeriodUpdate k f c).Inv p :=
  mapVoice_inv k (fun _ hv => retune_inv (tonePeriod_pos ..) (tonePeriod_le ..) hv) h

theorem noisePeriodUpdate_inv {s : Synth} (h : s.Inv p) : s.noisePeriodUpdate.Inv p :=
  ⟨h.1, h.2.1, h.2.2.1, ⟨noisePeriod_pos _, noisePeriod_le _, movedCount_pos ..⟩, h.2.2.2.2⟩

theorem envPeriodUpdate_inv {s : Synth} (h : s.Inv p) : s.envPeriodUpdate.Inv p :=
  ⟨h.1, h.2.1, h.2.2.1, h.2.2.2.1, ⟨envPeriod_pos .., envPeriod_le .., movedCount_pos ..⟩, h.2.2.2.2.2⟩

theorem volumeUpdate_inv (hp : p.Valid) (k : Fin 3) (r : BitVec 4) {s : Synth} (h : s.Inv p) : (s.volumeUpdate p k r).Inv p := by
  have hvol : voiceVolume p (s.reg r) s.volE ≤ p.volTable[31] := by
    unfold voiceVolume
    split
    · exact h.2.2.2.2.2.2.2
    · exact fixedVolume_le hp _
  exact mapVoice_inv k (f := fun v => { v with envSel := volEnvSelect (s.reg r), vol := voiceVolume p (s.reg r) s.volE })
    (fun v hv => ⟨hv.1, hv.2.1, hv.2.2.1, hvol⟩) h

theorem envVolumeUpdate_inv (hp : p.Valid) {s : Synth} (h : s.Inv p) : (s.envVolumeUpdate p).Inv p := by
  have hv := Params.vol_le hp (s.step ^^^ s.attack)
  exact mapVoices_inv (fun _ _ hv' => followEnv_inv hv hv')
    (s := { s with volE := p.vol (s.step ^^^ s.attack) })
    ⟨h.1, h.2.1, h.2.2.1, h.2.2.2.1, h.2.2.2.2.1, h.2.2.2.2.2.1, h.2.2.2.2.2.2.1, hv⟩

theorem shapeWrite_inv (hp : p.Valid) (d : Byte) {s : Synth} (h : s.Inv p) : (s.shapeWrite p d).Inv p := by
  obtain ⟨ha, hb, hc, hn, ⟨he1, he2, he3⟩, -, hr, hv⟩ := h
  exact envVolumeUpdate_inv hp ⟨ha, hb, hc, hn, ⟨he1, he2, Int.ofNat_le.2 he1⟩, decodeShape_attack d, hr, hv⟩

theorem afterWrite_inv (hp : p.Valid) (k : BitVec 4) (d : Byte) {s : Synth} (h : s.Inv p) : (s.afterWrite p k d).Inv p := by
  unfold afterWrite
  split <;> first
    | exact tonePeriodUpdate_inv _ _ _ h
    | exact noisePeriodUpdate_inv h
    | exact volumeUpdate_inv hp _ _ h
    | exact envPeriodUpdate_inv h
    | exact shapeWrite_inv hp _ h
    | exact h

/-- `SynWrite` keeps the ranges (R241, R248, R254; 10_state.md R66). -/
theorem write_inv (hp : p.Valid) (k : BitVec 4) (d : Byte) {s : Synth} (h : s.Inv p) : (s.write p k d).Inv p :=
  afterWrite_inv hp k d (setReg_inv k d h)

theorem noiseStep_inv {s : Synth} (h : s.Inv p) : s.noiseStep.Inv p := by
  obtain ⟨ha, hb, hc, ⟨hn1, hn2, hn3⟩, he, hat, hr, hv⟩ := h
  simp only [noiseStep]
  split
  · exact ⟨ha, hb, hc, ⟨hn1, hn2, by simp only; omega⟩, he, hat, nextRng_ne_zero hr, hv⟩
  · exact ⟨ha, hb, hc, ⟨hn1, hn2, by simp only; omega⟩, he, hat, hr, hv⟩

/-- The inverted attack mask is 0 or 31 again (R284). -/
theorem altAttack_mask {s : Synth} (h : s.attack = 0#5 ∨ s.attack = 31#5) : s.altAttack = 0#5 ∨ s.altAttack = 31#5 := by
  unfold altAttack
  rcases h with h | h <;> rw [h] <;> cases s.alt <;> decide

theorem envDescend_inv {s : Synth} (h : s.Inv p) : s.envDescend.Inv p := by
  obtain ⟨ha, hb, hc, hn, he, hat, hr, hv⟩ := h
  unfold envDescend envBottom
  split
  · split <;> exact ⟨ha, hb, hc, hn, he, altAttack_mask hat, hr, hv⟩
  · exact ⟨ha, hb, hc, hn, he, hat, hr, hv⟩

theorem envStep_inv (hp : p.Valid) {s : Synth} (h : s.Inv p) : (s.envStep p).Inv p := by
  obtain ⟨ha, hb, hc, hn, ⟨he1, he2, he3⟩, hat, hr, hv⟩ := h
  unfold envStep
  simp only
  split
  · exact ⟨ha, hb, hc, hn, ⟨he1, he2, he3⟩, hat, hr, hv⟩
  · split
    · exact envVolumeUpdate_inv hp (envDescend_inv ⟨ha, hb, hc, hn, ⟨he1, he2, by simp only; omega⟩, hat, hr, hv⟩)
    · exact ⟨ha, hb, hc, hn, ⟨he1, he2, by simp only; omega⟩, hat, hr, hv⟩

theorem accumulate_inv {s : Synth} (h : s.Inv p) : s.accumulate.Inv p := mapVoices_inv (fun _ _ hv => hv) h

/-- A tick keeps the ranges (43_synth_generators.md R288). -/
theorem tick_inv (hp : p.Valid) {s : Synth} (h : s.Inv p) : (s.tick p).Inv p :=
  accumulate_inv (envStep_inv hp (noiseStep_inv (mapVoices_inv (fun _ _ hv => toneStep_inv hv) h)))

theorem ticks_inv (hp : p.Valid) (n : Nat) {s : Synth} (h : s.Inv p) : (s.ticks p n).Inv p := by
  induction n generalizing s with
  | zero => exact h
  | succ n ih => exact ih (tick_inv hp h)

theorem sampleTicks_inv (hp : p.Valid) {s : Synth} (h : s.Inv p) : (s.sampleTicks p).Inv p :=
  ticks_inv hp _ (mapVoices_inv (fun _ _ hv => hv) h)

/-! ### Derived elements -/

/-- The derived elements are about these only. -/
theorem Derived.congr {s t : Synth} (h : s.Derived p) (hr : t.r = s.r) (ha : t.va.per = s.va.per ∧ t.va.envSel = s.va.envSel ∧ t.va.vol = s.va.vol)
    (hb : t.vb.per = s.vb.per ∧ t.vb.envSel = s.vb.envSel ∧ t.vb.vol = s.vb.vol)
    (hc : t.vc.per = s.vc.per ∧ t.vc.envSel = s.vc.envSel ∧ t.vc.vol = s.vc.vol) (hn : t.perN = s.perN)
    (he : t.perE = s.perE) (hh : t.hold = s.hold) (hl : t.alt = s.alt) (hv : t.volE = s.volE)
    (hs : t.step = s.step) (hk : t.attack = s.attack) : t.Derived p := by
  have hreg : ∀ k, t.reg k = s.reg k := fun k => by simp [reg, hr]
  simp only [Synth.Derived, Voice.Derived, hreg, ha, hb, hc, hn, he, hh, hl, hv, hs, hk]
  exact h

/-- After the envelope's volume is recomputed, an envelope-driven voice has it and every other voice keeps its own. -/
theorem followEnv_derived {f c v : Byte} {e : Nat} (e' : Nat) {w : Voice} (h : w.Derived p f c v e) :
    (followEnv e' w).Derived p f c v e' := by
  obtain ⟨hp, hs, hv⟩ := h
  unfold followEnv Voice.Derived
  cases hm : volEnvSelect v <;> simp_all

theorem toneStep_derived {f c v : Byte} {e : Nat} {w : Voice} (h : w.Derived p f c v e) : (toneStep w).Derived p f c v e := by
  simp only [toneStep]
  split <;> exact h

/-- Every derived element but the envelope's volume (10_state.md R40), for the moment before it is recomputed. -/
abbrev Derived' (p : Params) (e : Nat) (s : Synth) : Prop :=
  s.va.Derived p (s.reg 0#4) (s.reg 1#4) (s.reg 8#4) e
  ∧ s.vb.Derived p (s.reg 2#4) (s.reg 3#4) (s.reg 9#4) e
  ∧ s.vc.Derived p (s.reg 4#4) (s.reg 5#4) (s.reg 10#4) e
  ∧ s.perN = noisePeriod (s.reg 6#4) ∧ s.perE = envPeriod (s.reg 11#4) (s.reg 12#4)
  ∧ s.hold = (decodeShape (s.reg 13#4)).hold ∧ s.alt = (decodeShape (s.reg 13#4)).alt

theorem envVolumeUpdate_derived {e : Nat} {s : Synth} (h : s.Derived' p e) : (s.envVolumeUpdate p).Derived p := by
  obtain ⟨ha, hb, hc, hn, he, hh, hl⟩ := h
  exact ⟨followEnv_derived _ ha, followEnv_derived _ hb, followEnv_derived _ hc, hn, he, hh, hl, rfl⟩

theorem noiseStep_derived {s : Synth} (h : s.Derived p) : s.noiseStep.Derived p := by
  simp only [noiseStep]
  split <;> exact h

theorem envStep_derived {s : Synth} (h : s.Derived p) : (s.envStep p).Derived p := by
  obtain ⟨ha, hb, hc, hn, he, hh, hl, hv⟩ := h
  unfold envStep
  simp only
  split
  · exact ⟨ha, hb, hc, hn, he, hh, hl, hv⟩
  · split
    · apply envVolumeUpdate_derived (e := s.volE)
      unfold envDescend envBottom
      split
      · split <;> exact ⟨ha, hb, hc, hn, he, hh, hl⟩
      · exact ⟨ha, hb, hc, hn, he, hh, hl⟩
    · exact ⟨ha, hb, hc, hn, he, hh, hl, hv⟩

theorem toneSteps_derived {s : Synth} (h : s.Derived p) : (s.mapVoices fun _ => toneStep).Derived p := by
  obtain ⟨ha, hb, hc, hr⟩ := h
  exact ⟨toneStep_derived ha, toneStep_derived hb, toneStep_derived hc, hr⟩

/-- A tick keeps the derived elements. -/
theorem tick_derived {s : Synth} (h : s.Derived p) : (s.tick p).Derived p :=
  envStep_derived (noiseStep_derived (toneSteps_derived h))

theorem ticks_derived (n : Nat) {s : Synth} (h : s.Derived p) : (s.ticks p n).Derived p := by
  induction n generalizing s with
  | zero => exact h
  | succ n ih => exact ih (tick_derived h)

theorem sampleTicks_derived {s : Synth} (h : s.Derived p) : (s.sampleTicks p).Derived p :=
  ticks_derived _ (s := s.clearHigh) h

/-- Only the raw store of a write changes a register (R240). -/
theorem reg_afterWrite (p : Params) (k : BitVec 4) (d : Byte) (s : Synth) (l : BitVec 4) : (s.afterWrite p k d).reg l = s.reg l := by
  unfold afterWrite
  split <;> first
    | exact reg_mapVoice ..
    | rfl

/-- The registers after a write (R240). -/
theorem reg_write (p : Params) (k : BitVec 4) (d : Byte) (s : Synth) (l : BitVec 4) :
    (s.write p k d).reg l = if k = l then d else s.reg l := by
  rw [write, reg_afterWrite, reg_setReg]

/-- `SynWrite` re-establishes every derived element the register feeds and keeps the others (R240). -/
theorem write_derived (k : BitVec 4) (d : Byte) {s : Synth} (h : s.Derived p) : (s.write p k d).Derived p := by
  obtain ⟨⟨ha1, ha2, ha3⟩, ⟨hb1, hb2, hb3⟩, ⟨hc1, hc2, hc3⟩, hn, he, hh, hl, hv⟩ := h
  have shape : (s.write p 13#4 d).Derived p := by
    refine envVolumeUpdate_derived (e := s.volE) ?_
    simp only [Derived', Voice.Derived]
    have hr : ∀ l, (shapeStart d (s.setReg 13#4 d)).reg l = if 13#4 = l then d else s.reg l := (reg_setReg s _ · d)
    simp only [hr]
    simp [shapeStart, setReg, *]
  apply forall_register (P := fun k => (s.write p k d).Derived p)
  case h13 => exact shape
  all_goals
    simp only [Synth.Derived, Voice.Derived, reg_write]
    simp [write, afterWrite, tonePeriodUpdate, volumeUpdate, noisePeriodUpdate, envPeriodUpdate, voiceVolume, mapVoice,
      retune, reg_setReg]
    simp [setReg, *]

end Synth

end Sys2Proof.Machine
end

