-- ==== Sys2Proof/Laws/Ops.lean ====
section
/-! SUPPORT. One lemma per shared operation over the whole state: everything it can do, and that it keeps `State.Inv`. -/

namespace Sys2Proof.Machine

/-! ### Sequencing -/

@[simp] theorem andThen_next (s : State) (f : State → Res) : andThen (.next s) f = f s := rfl
@[simp] theorem andThen_fault (e : Fault) (f : State → Res) : andThen (.fault e) f = .fault e := rfl
@[simp] theorem andThen_refused (e : Refusal) (f : State → Res) : andThen (.refused e) f = .refused e := rfl

/-- A sequence that answers a next state passed through one. -/
theorem andThen_eq_next {r : Res} {f : State → Res} {t : State} :
    andThen r f = .next t ↔ ∃ u, r = .next u ∧ f u = .next t := by
  cases r <;> simp

/-! ### The register-select protocol and the port hooks -/

/-- `PsgProtocol()`: nothing, one Synthesizer write to the selected register (not 14), or a new selection (R375). -/
theorem psgProtocol_cases (s : State) :
    s.psgProtocol = s
    ∨ (psgControl s.c.orb = 2#2 ∧ s.g.sel ≠ 14#4 ∧ s.psgProtocol = s.mapSyn (Synth.write s.cfg s.g.sel s.c.ora))
    ∨ (psgControl s.c.orb = 3#2 ∧ s.c.ora.extractLsb' 4 4 = 0#4
        ∧ s.psgProtocol = s.mapG fun g => { g with sel := s.c.ora.extractLsb' 0 4 }) := by
  unfold State.psgProtocol
  split
  · next h =>
    have h2 : psgControl s.c.orb = 2#2 := BitVec.eq_of_toNat_eq h
    by_cases h14 : s.g.sel = 14#4
    · exact .inl (by simp [h14])
    · exact .inr (.inl ⟨h2, h14, by simp [h14]⟩)
  · next h =>
    have h3 : psgControl s.c.orb = 3#2 := BitVec.eq_of_toNat_eq h
    by_cases h4 : s.c.ora.extractLsb' 4 4 = 0#4
    · exact .inr (.inr ⟨h3, h4, by simp [h4]⟩)
    · exact .inl (by simp [h4])
  · exact .inl rfl

/-- The protocol leaves the configuration, the Controller, the Beam Engine, the frame counter, the records, what was given out and what is
pending. -/
theorem psgProtocol_frame (s : State) :
    s.psgProtocol.cfg = s.cfg ∧ s.psgProtocol.c = s.c ∧ s.psgProtocol.b = s.b ∧ s.psgProtocol.g.frame = s.g.frame ∧ s.psgProtocol.g.vec = s.g.vec
    ∧ s.psgProtocol.out = s.out ∧ s.psgProtocol.pending = s.pending := by
  rcases psgProtocol_cases s with h | ⟨-, -, h⟩ | ⟨-, -, h⟩ <;> rw [h] <;> simp

theorem psgProtocol_inv {s : State} (h : s.Inv) : s.psgProtocol.Inv := by
  rcases psgProtocol_cases s with e | ⟨-, -, e⟩ | ⟨-, -, e⟩ <;> rw [e]
  · exact h
  · obtain ⟨hc, hs, hd, hb, hg, hp⟩ := h
    exact ⟨hc, Synth.write_inv hp _ _ hs, Synth.write_derived _ _ hd, hb, hg, hp⟩
  · exact h

theorem hookWritePA_inv (d : Byte) {s : State} (h : s.Inv) : (s.hookWritePA d).Inv := by
  obtain ⟨hc, hs, hd, hb, hg⟩ := psgProtocol_inv h
  exact ⟨hc, hs, hd, Beam.setX_inv _ _ hb, hg⟩

theorem hookWritePB_inv {s : State} (h : s.Inv) : s.hookWritePB.Inv := by
  obtain ⟨hc, hs, hd, hb, hg⟩ := psgProtocol_inv h
  exact ⟨hc, hs, hd, Beam.sampleUpdate_inv _ hb, hg⟩

/-! ### Updates of one part -/

theorem mapC_inv {f : Controller → Controller} {s : State} (h : s.Inv) (hf : (f s.c).Inv) : (s.mapC f).Inv :=
  ⟨hf, h.2⟩

theorem mapSyn_inv {f : Synth → Synth} {s : State} (h : s.Inv) (hf : (f s.syn).Inv s.cfg) (hd : (f s.syn).Derived s.cfg) :
    (s.mapSyn f).Inv := ⟨h.1, hf, hd, h.2.2.2⟩

theorem mapB_inv {f : Beam → Beam} {s : State} (h : s.Inv) (hf : (f s.b).Inv s.cfg) : (s.mapB f).Inv :=
  ⟨h.1, h.2.1, h.2.2.1, hf, h.2.2.2.2⟩

theorem mapG_inv {f : Glue → Glue} {s : State} (h : s.Inv) (hf : (f s.g).Inv s.cfg) : (s.mapG f).Inv :=
  ⟨h.1, h.2.1, h.2.2.1, h.2.2.2.1, hf, h.2.2.2.2.2⟩

/-- What the block has given out is no part of the invariant. -/
theorem give_inv (o : Output) {s : State} (h : s.Inv) : (s.give o).Inv := h

/-- The button input is a register no derived element reads (R118, R376). -/
theorem input_derived {p : Params} (v : Byte) {s : Synth} (h : s.Derived p) : (s.input v).Derived p := by
  have hr : ∀ l, (s.setReg 14#4 v).reg l = if 14#4 = l then v else s.reg l := (Synth.reg_setReg s _ · v)
  simp only [Synth.input, Synth.Derived, Voice.Derived, hr]
  exact h

/-! ### The Beam Engine step, the cycle, the frame -/

/-- A Beam Engine step without its guard: the Beam Engine advances, and at most one record is emitted (R320, R364). -/
theorem beamAdvance_cases (s : State) :
    ((s.b.advance s.cfg s.c).2 = none ∧ s.beamAdvance = { s with b := (s.b.advance s.cfg s.c).1 })
    ∨ ∃ v, (s.b.advance s.cfg s.c).2 = some v
        ∧ s.beamAdvance = { s with
            b := (s.b.advance s.cfg s.c).1, g := { s.g with vec := s.g.vec ++ [v] }, out := s.out ++ [.line v] } := by
  cases h : (s.b.advance s.cfg s.c).2 with
  | none => exact .inl ⟨rfl, by simp only [State.beamAdvance, h]; rfl⟩
  | some v => exact .inr ⟨v, rfl, by simp only [State.beamAdvance, h]; rfl⟩

@[simp] theorem beamAdvance_b (s : State) : s.beamAdvance.b = (s.b.advance s.cfg s.c).1 := by
  rcases beamAdvance_cases s with ⟨-, h⟩ | ⟨v, -, h⟩ <;> rw [h]

@[simp] theorem beamAdvance_cfg (s : State) : s.beamAdvance.cfg = s.cfg := by
  rcases beamAdvance_cases s with ⟨-, h⟩ | ⟨v, -, h⟩ <;> rw [h]

@[simp] theorem beamAdvance_c (s : State) : s.beamAdvance.c = s.c := by
  rcases beamAdvance_cases s with ⟨-, h⟩ | ⟨v, -, h⟩ <;> rw [h]

@[simp] theorem beamAdvance_syn (s : State) : s.beamAdvance.syn = s.syn := by
  rcases beamAdvance_cases s with ⟨-, h⟩ | ⟨v, -, h⟩ <;> rw [h]

@[simp] theorem beamAdvance_sel (s : State) : s.beamAdvance.g.sel = s.g.sel := by
  rcases beamAdvance_cases s with ⟨-, h⟩ | ⟨v, -, h⟩ <;> rw [h]

@[simp] theorem beamAdvance_frame (s : State) : s.beamAdvance.g.frame = s.g.frame := by
  rcases beamAdvance_cases s with ⟨-, h⟩ | ⟨v, -, h⟩ <;> rw [h]

@[simp] theorem beamAdvance_pending (s : State) : s.beamAdvance.pending = s.pending := by
  rcases beamAdvance_cases s with ⟨-, h⟩ | ⟨v, -, h⟩ <;> rw [h]

/-- A Beam Engine step answers a next state exactly when the position it reaches is inside the limit (R335). -/
theorem beamStep_eq_next {s t : State} :
    beamStep s = .next t ↔ s.beamAdvance.b.beyondLimit s.cfg = false ∧ t = s.beamAdvance := by
  unfold beamStep
  cases hl : s.beamAdvance.b.beyondLimit s.cfg
  · simp only [Bool.false_eq_true, if_false, Host.Outcome.next.injEq, true_and]
    exact eq_comm
  · simp only [if_true, reduceCtorEq, Bool.true_eq_false, false_and]

/-- A Beam Engine step is never refused. -/
theorem beamStep_ne_refused (s : State) (r : Refusal) : beamStep s ≠ .refused r := by
  unfold beamStep
  split <;> simp

/-- A cycle answers a next state exactly when its Beam Engine step does (R360). -/
theorem cycle_eq_next {s t : State} :
    cycle s = .next t ↔
      (s.mapC Controller.phaseA).beamAdvance.b.beyondLimit s.cfg = false
      ∧ t = (s.mapC Controller.phaseA).beamAdvance.mapC Controller.phaseB := by
  unfold cycle
  rw [andThen_eq_next]
  constructor
  · rintro ⟨u, hu, ht⟩
    obtain ⟨hl, rfl⟩ := beamStep_eq_next.1 hu
    exact ⟨hl, by simpa [eq_comm] using ht⟩
  · rintro ⟨hl, rfl⟩
    exact ⟨_, beamStep_eq_next.2 ⟨hl, rfl⟩, rfl⟩

theorem cycles_succ_eq_next {n : Nat} {s t : State} :
    cycles (n + 1) s = .next t ↔ ∃ u, cycle s = .next u ∧ cycles n u = .next t := by
  rw [cycles, andThen_eq_next]

/-- What every cycle keeps, `n` cycles keep. -/
theorem cycles_induction {P : State → Prop} (hstep : ∀ s t, P s → cycle s = .next t → P t) {n : Nat} {s t : State}
    (hs : P s) (h : cycles n s = .next t) : P t := by
  induction n generalizing s with
  | zero => simp only [cycles, Host.Outcome.next.injEq] at h; exact h ▸ hs
  | succ n ih =>
    obtain ⟨u, hu, ht⟩ := cycles_succ_eq_next.1 h
    exact ih (hstep s u hs hu) ht

theorem beamAdvance_inv {s : State} (h : s.Inv) (hl : s.beamAdvance.b.beyondLimit s.cfg = false) : s.beamAdvance.Inv := by
  obtain ⟨hc, hs, hd, hb, hg, hp⟩ := h
  obtain ⟨h1, h2⟩ := Beam.advance_inv s.cfg s.c hb
  rw [beamAdvance_b] at hl
  rcases beamAdvance_cases s with ⟨-, e⟩ | ⟨v, hv, e⟩ <;> rw [e]
  · exact ⟨hc, hs, hd, h1 hl, hg, hp⟩
  · refine ⟨hc, hs, hd, h1 hl, ⟨hg.1, hg.2.1, ?_⟩, hp⟩
    intro w hw
    rcases List.mem_append.1 hw with hw | hw
    · exact hg.2.2 w hw
    · obtain rfl : w = v := by simpa using hw
      exact h2 w hv

theorem cycle_inv {s t : State} (h : s.Inv) (ht : cycle s = .next t) : t.Inv := by
  obtain ⟨hl, rfl⟩ := cycle_eq_next.1 ht
  have hA : (s.mapC Controller.phaseA).Inv := mapC_inv h (Controller.phaseA_inv h.1)
  have hB := beamAdvance_inv hA hl
  exact mapC_inv hB (Controller.phaseB_inv hB.1)

theorem cycles_inv {n : Nat} {s t : State} (h : s.Inv) (ht : cycles n s = .next t) : t.Inv :=
  cycles_induction (fun _ _ => cycle_inv) h ht

/-- `FrameAccount(n)`: the counter falls, or it is reloaded, the records are handed over and the list is empty (R363). -/
theorem frameAccount_cases (n : Byte) (s : State) :
    (0 ≤ s.g.frame - (n.toNat : Int)
      ∧ s.frameAccount n = { s with g := { s.g with frame := s.g.frame - (n.toNat : Int) } })
    ∨ (s.g.frame - (n.toNat : Int) < 0
      ∧ s.frameAccount n = { s with
          g := { s.g with frame := s.cfg.frameCycles, vec := [] }, out := s.out ++ [.frameFlush s.g.vec] }) := by
  by_cases h : s.g.frame - (n.toNat : Int) < 0
  · exact .inr ⟨h, by simp only [State.frameAccount, h]; rfl⟩
  · exact .inl ⟨by omega, by simp only [State.frameAccount, h]; rfl⟩

theorem frameAccount_inv (n : Byte) {s : State} (h : s.Inv) : (s.frameAccount n).Inv := by
  obtain ⟨hc, hs, hd, hb, ⟨hg1, hg2, hg3⟩, hp⟩ := h
  rcases frameAccount_cases n s with ⟨hn, e⟩ | ⟨-, e⟩ <;> rw [e]
  · exact ⟨hc, hs, hd, hb, ⟨hn, by simp only; omega, hg3⟩, hp⟩
  · exact ⟨hc, hs, hd, hb, ⟨Int.natCast_nonneg _, Int.le_refl _, by simp⟩, hp⟩

/-! ### Reset -/

/-- The voice that the reset procedure leaves has the table's entry 0 as its volume (R62). -/
theorem resetProcedure_voices (p : Params) :
    Synth.resetProcedure p =
      let v : Voice := { Voice.atReset with vol := p.volTable[0] }
      { Synth.atReset p with va := v, vb := v, vc := v } := by
  simp [Synth.resetProcedure, Synth.zeroed, Synth.writeZeros, Synth.write, Synth.setReg, Synth.afterWrite, Synth.reg,
    Synth.tonePeriodUpdate, Synth.noisePeriodUpdate, Synth.envPeriodUpdate, Synth.volumeUpdate, Synth.shapeWrite,
    Synth.shapeStart, Synth.envVolumeUpdate, Synth.mapVoice, Synth.mapVoices, Synth.retune, Synth.movedCount,
    Synth.voiceVolume, Synth.followEnv, tonePeriod, noisePeriod, envPeriod, decodeShape, volEnvSelect, fixedVolume, volIndex,
    Params.vol, Synth.atReset, Voice.atReset]

/-- The reset procedure of R62 gives the values R62 lists as its result, under any table whose entry 0 is silent (R60). -/
theorem resetProcedure_eq {p : Params} (h : p.volTable[0] = 0) : Synth.resetProcedure p = Synth.atReset p := by
  rw [resetProcedure_voices, h]
  rfl

theorem Controller.atReset_inv : Controller.atReset.Inv := by decide

/-- The Synthesizer after the reset procedure is in its ranges and has the derived elements its registers give. -/
theorem resetProcedure_inv {p : Params} (hp : p.Valid) :
    (Synth.resetProcedure p).Inv p ∧ (Synth.resetProcedure p).Derived p := by
  obtain ⟨h0, -, -, hr, -⟩ := id hp
  have hv : Voice.atReset.Inv p.volTable[31] := ⟨by decide, by decide, by decide, Nat.zero_le _⟩
  constructor
  · rw [resetProcedure_eq h0]
    exact ⟨hv, hv, hv, by simp [Synth.atReset], by simp [Synth.atReset], .inl rfl, hr, Params.vol_le hp _⟩
  · rw [resetProcedure_eq h0]
    simp [Synth.Derived, Voice.Derived, Synth.atReset, Voice.atReset, Synth.reg, tonePeriod, noisePeriod, envPeriod,
      volEnvSelect, fixedVolume, volIndex, decodeShape, Params.vol, h0]

theorem Beam.atReset_inv {p : Params} (hp : p.Valid) : (Beam.atReset p).Inv p := by
  obtain ⟨-, -, -, -, hx, hy⟩ := hp
  refine ⟨by simp [Beam.atReset], by simp [Beam.atReset], by simp [Beam.atReset], by simp [Beam.atReset],
    by simp [Beam.atReset], ?_, by simp [Beam.atReset]⟩
  refine decide_eq_false ?_
  simp only [Beam.atReset, Params.centerX, Params.centerY]
  omega

theorem Glue.atReset_inv (p : Params) : (Glue.atReset p).Inv p :=
  ⟨Int.natCast_nonneg _, Int.le_refl _, by simp [Glue.atReset]⟩

end Sys2Proof.Machine
end

