-- ==== Sys2Proof/Laws/PerInstr.lean ====
section
/-! SUPPORT. The fields of an encoded request word (30_encoding.md R101), and the per-instruction family `EncodedWord`: the
word of an instruction is not reserved by any clause of R109. -/

namespace Sys2Proof

/-- A word put together from its two bytes has them back. -/
theorem join_high (h l : Byte) : ((h.setWidth 16 <<< 8) ||| l.setWidth 16 : Word).extractLsb' 8 8 = h := by
  ext i hi
  interval_cases i <;> simp

theorem join_low (h l : Byte) : ((h.setWidth 16 <<< 8) ||| l.setWidth 16 : Word).extractLsb' 0 8 = l := by
  ext i hi
  interval_cases i <;> simp

/-- The class field is the top of the high byte. -/
theorem encode_cls (i : Instr) : (encode i).cls = i.highByte.extractLsb' 5 3 := by
  ext j hj
  interval_cases j <;> simp [encode, Word.cls]

/-- The selection field is the rest of the high byte. -/
theorem encode_sel (i : Instr) : (encode i).sel = i.highByte.extractLsb' 0 5 := by
  ext j hj
  interval_cases j <;> simp [encode, Word.sel]

/-- The data field is the low byte. -/
theorem encode_data (i : Instr) : (encode i).data = i.lowByte := join_low ..

/-- Bit 12 is bit 4 of the high byte. -/
theorem encode_bit12 (i : Instr) : (encode i).getLsbD 12 = i.highByte.getLsbD 4 := by
  simp [encode]

namespace Laws.EncodedWord

/-- The request word of the instruction is well formed (R109). -/
def Statement (i : Instr) : Prop := Word.wellFormed (encode i) = true

/-- Well-formedness of an encoded word, clause by clause, on its two bytes. -/
theorem statement_of_bytes {i : Instr} (hc : (i.highByte.extractLsb' 5 3).toNat < 6)
    (hw : 4 ≤ (i.highByte.extractLsb' 5 3).toNat ∨ i.highByte.getLsbD 4 = false)
    (hr : (i.highByte.extractLsb' 5 3 = 0#3 ∨ i.highByte.extractLsb' 5 3 = 2#3) → i.lowByte = 0#8)
    (hs : i.highByte.extractLsb' 5 3 = 4#3 → (i.highByte.extractLsb' 0 5).toNat < 9
      ∧ (i.highByte.extractLsb' 0 5 = 5#5 ∨ i.lowByte = 0#8))
    (hh : i.highByte.extractLsb' 5 3 = 5#3 → (i.highByte.extractLsb' 0 5).toNat < 5) : Statement i := by
  simp only [Statement, Word.wellFormed, Word.classUsed, Word.windowBitClear, Word.readDataClear, Word.stepUsed,
    Word.stepDataClear, Word.hostUsed, encode_cls, encode_sel, encode_data, encode_bit12, Bool.and_eq_true]
  refine ⟨⟨⟨⟨⟨by simpa using hc, by simpa using hw⟩, ?_⟩, ?_⟩, ?_⟩, ?_⟩
  · by_cases h : i.highByte.extractLsb' 5 3 = 0#3 ∨ i.highByte.extractLsb' 5 3 = 2#3
    · simp [hr h]
    · simp [not_or.1 h]
  · by_cases h : i.highByte.extractLsb' 5 3 = 4#3
    · rw [decide_eq_true (hs h).1, Bool.or_true]
    · simp [h]
  · by_cases h : i.highByte.extractLsb' 5 3 = 4#3
    · rcases (hs h).2 with e | e <;> simp [e]
    · simp [h]
  · by_cases h : i.highByte.extractLsb' 5 3 = 5#3
    · rw [decide_eq_true (hh h), Bool.or_true]
    · simp [h]

theorem crd0 : Statement .crd0 := statement_of_bytes (by decide) (by decide) (by decide) (by decide) (by decide)
theorem crd1 : Statement .crd1 := statement_of_bytes (by decide) (by decide) (by decide) (by decide) (by decide)
theorem crd2 : Statement .crd2 := statement_of_bytes (by decide) (by decide) (by decide) (by decide) (by decide)
theorem crd3 : Statement .crd3 := statement_of_bytes (by decide) (by decide) (by decide) (by decide) (by decide)
theorem crd4 : Statement .crd4 := statement_of_bytes (by decide) (by decide) (by decide) (by decide) (by decide)
theorem crd5 : Statement .crd5 := statement_of_bytes (by decide) (by decide) (by decide) (by decide) (by decide)
theorem crd6 : Statement .crd6 := statement_of_bytes (by decide) (by decide) (by decide) (by decide) (by decide)
theorem crd7 : Statement .crd7 := statement_of_bytes (by decide) (by decide) (by decide) (by decide) (by decide)
theorem crd8 : Statement .crd8 := statement_of_bytes (by decide) (by decide) (by decide) (by decide) (by decide)
theorem crd9 : Statement .crd9 := statement_of_bytes (by decide) (by decide) (by decide) (by decide) (by decide)
theorem crdA : Statement .crdA := statement_of_bytes (by decide) (by decide) (by decide) (by decide) (by decide)
theorem crdB : Statement .crdB := statement_of_bytes (by decide) (by decide) (by decide) (by decide) (by decide)
theorem crdC : Statement .crdC := statement_of_bytes (by decide) (by decide) (by decide) (by decide) (by decide)
theorem crdD : Statement .crdD := statement_of_bytes (by decide) (by decide) (by decide) (by decide) (by decide)
theorem crdE : Statement .crdE := statement_of_bytes (by decide) (by decide) (by decide) (by decide) (by decide)
theorem crdF : Statement .crdF := statement_of_bytes (by decide) (by decide) (by decide) (by decide) (by decide)
theorem cwr0 (d : Byte) : Statement (.cwr0 d) :=
  statement_of_bytes (by simp [Instr.highByte]) (by simp [Instr.highByte]) (by simp [Instr.highByte]) (by simp [Instr.highByte]) (by simp [Instr.highByte])
theorem cwr1 (d : Byte) : Statement (.cwr1 d) :=
  statement_of_bytes (by simp [Instr.highByte]) (by simp [Instr.highByte]) (by simp [Instr.highByte]) (by simp [Instr.highByte]) (by simp [Instr.highByte])
theorem cwr2 (d : Byte) : Statement (.cwr2 d) :=
  statement_of_bytes (by simp [Instr.highByte]) (by simp [Instr.highByte]) (by simp [Instr.highByte]) (by simp [Instr.highByte]) (by simp [Instr.highByte])
theorem cwr3 (d : Byte) : Statement (.cwr3 d) :=
  statement_of_bytes (by simp [Instr.highByte]) (by simp [Instr.highByte]) (by simp [Instr.highByte]) (by simp [Instr.highByte]) (by simp [Instr.highByte])
theorem cwr4 (d : Byte) : Statement (.cwr4 d) :=
  statement_of_bytes (by simp [Instr.highByte]) (by simp [Instr.highByte]) (by simp [Instr.highByte]) (by simp [Instr.highByte]) (by simp [Instr.highByte])
theorem cwr5 (d : Byte) : Statement (.cwr5 d) :=
  statement_of_bytes (by simp [Instr.highByte]) (by simp [Instr.highByte]) (by simp [Instr.highByte]) (by simp [Instr.highByte]) (by simp [Instr.highByte])
theorem cwr6 (d : Byte) : Statement (.cwr6 d) :=
  statement_of_bytes (by simp [Instr.highByte]) (by simp [Instr.highByte]) (by simp [Instr.highByte]) (by simp [Instr.highByte]) (by simp [Instr.highByte])
theorem cwr7 (d : Byte) : Statement (.cwr7 d) :=
  statement_of_bytes (by simp [Instr.highByte]) (by simp [Instr.highByte]) (by simp [Instr.highByte]) (by simp [Instr.highByte]) (by simp [Instr.highByte])
theorem cwr8 (d : Byte) : Statement (.cwr8 d) :=
  statement_of_bytes (by simp [Instr.highByte]) (by simp [Instr.highByte]) (by simp [Instr.highByte]) (by simp [Instr.highByte]) (by simp [Instr.highByte])
theorem cwr9 (d : Byte) : Statement (.cwr9 d) :=
  statement_of_bytes (by simp [Instr.highByte]) (by simp [Instr.highByte]) (by simp [Instr.highByte]) (by simp [Instr.highByte]) (by simp [Instr.highByte])
theorem cwrA (d : Byte) : Statement (.cwrA d) :=
  statement_of_bytes (by simp [Instr.highByte]) (by simp [Instr.highByte]) (by simp [Instr.highByte]) (by simp [Instr.highByte]) (by simp [Instr.highByte])
theorem cwrB (d : Byte) : Statement (.cwrB d) :=
  statement_of_bytes (by simp [Instr.highByte]) (by simp [Instr.highByte]) (by simp [Instr.highByte]) (by simp [Instr.highByte]) (by simp [Instr.highByte])
theorem cwrC (d : Byte) : Statement (.cwrC d) :=
  statement_of_bytes (by simp [Instr.highByte]) (by simp [Instr.highByte]) (by simp [Instr.highByte]) (by simp [Instr.highByte]) (by simp [Instr.highByte])
theorem cwrD (d : Byte) : Statement (.cwrD d) :=
  statement_of_bytes (by simp [Instr.highByte]) (by simp [Instr.highByte]) (by simp [Instr.highByte]) (by simp [Instr.highByte]) (by simp [Instr.highByte])
theorem cwrE (d : Byte) : Statement (.cwrE d) :=
  statement_of_bytes (by simp [Instr.highByte]) (by simp [Instr.highByte]) (by simp [Instr.highByte]) (by simp [Instr.highByte]) (by simp [Instr.highByte])
theorem cwrF (d : Byte) : Statement (.cwrF d) :=
  statement_of_bytes (by simp [Instr.highByte]) (by simp [Instr.highByte]) (by simp [Instr.highByte]) (by simp [Instr.highByte]) (by simp [Instr.highByte])
theorem swr0 (d : Byte) : Statement (.swr0 d) :=
  statement_of_bytes (by simp [Instr.highByte]) (by simp [Instr.highByte]) (by simp [Instr.highByte]) (by simp [Instr.highByte]) (by simp [Instr.highByte])
theorem swr1 (d : Byte) : Statement (.swr1 d) :=
  statement_of_bytes (by simp [Instr.highByte]) (by simp [Instr.highByte]) (by simp [Instr.highByte]) (by simp [Instr.highByte]) (by simp [Instr.highByte])
theorem swr2 (d : Byte) : Statement (.swr2 d) :=
  statement_of_bytes (by simp [Instr.highByte]) (by simp [Instr.highByte]) (by simp [Instr.highByte]) (by simp [Instr.highByte]) (by simp [Instr.highByte])
theorem swr3 (d : Byte) : Statement (.swr3 d) :=
  statement_of_bytes (by simp [Instr.highByte]) (by simp [Instr.highByte]) (by simp [Instr.highByte]) (by simp [Instr.highByte]) (by simp [Instr.highByte])
theorem swr4 (d : Byte) : Statement (.swr4 d) :=
  statement_of_bytes (by simp [Instr.highByte]) (by simp [Instr.highByte]) (by simp [Instr.highByte]) (by simp [Instr.highByte]) (by simp [Instr.highByte])
theorem swr5 (d : Byte) : Statement (.swr5 d) :=
  statement_of_bytes (by simp [Instr.highByte]) (by simp [Instr.highByte]) (by simp [Instr.highByte]) (by simp [Instr.highByte]) (by simp [Instr.highByte])
theorem swr6 (d : Byte) : Statement (.swr6 d) :=
  statement_of_bytes (by simp [Instr.highByte]) (by simp [Instr.highByte]) (by simp [Instr.highByte]) (by simp [Instr.highByte]) (by simp [Instr.highByte])
theorem swr7 (d : Byte) : Statement (.swr7 d) :=
  statement_of_bytes (by simp [Instr.highByte]) (by simp [Instr.highByte]) (by simp [Instr.highByte]) (by simp [Instr.highByte]) (by simp [Instr.highByte])
theorem swr8 (d : Byte) : Statement (.swr8 d) :=
  statement_of_bytes (by simp [Instr.highByte]) (by simp [Instr.highByte]) (by simp [Instr.highByte]) (by simp [Instr.highByte]) (by simp [Instr.highByte])
theorem swr9 (d : Byte) : Statement (.swr9 d) :=
  statement_of_bytes (by simp [Instr.highByte]) (by simp [Instr.highByte]) (by simp [Instr.highByte]) (by simp [Instr.highByte]) (by simp [Instr.highByte])
theorem swrA (d : Byte) : Statement (.swrA d) :=
  statement_of_bytes (by simp [Instr.highByte]) (by simp [Instr.highByte]) (by simp [Instr.highByte]) (by simp [Instr.highByte]) (by simp [Instr.highByte])
theorem swrB (d : Byte) : Statement (.swrB d) :=
  statement_of_bytes (by simp [Instr.highByte]) (by simp [Instr.highByte]) (by simp [Instr.highByte]) (by simp [Instr.highByte]) (by simp [Instr.highByte])
theorem swrC (d : Byte) : Statement (.swrC d) :=
  statement_of_bytes (by simp [Instr.highByte]) (by simp [Instr.highByte]) (by simp [Instr.highByte]) (by simp [Instr.highByte]) (by simp [Instr.highByte])
theorem swrD (d : Byte) : Statement (.swrD d) :=
  statement_of_bytes (by simp [Instr.highByte]) (by simp [Instr.highByte]) (by simp [Instr.highByte]) (by simp [Instr.highByte]) (by simp [Instr.highByte])
theorem swrE (d : Byte) : Statement (.swrE d) :=
  statement_of_bytes (by simp [Instr.highByte]) (by simp [Instr.highByte]) (by simp [Instr.highByte]) (by simp [Instr.highByte]) (by simp [Instr.highByte])
theorem swrF (d : Byte) : Statement (.swrF d) :=
  statement_of_bytes (by simp [Instr.highByte]) (by simp [Instr.highByte]) (by simp [Instr.highByte]) (by simp [Instr.highByte]) (by simp [Instr.highByte])
theorem srd (r : BitVec 4) : Statement (.srd r) := by revert r; simp only [Statement]; decide
theorem pha : Statement .pha := statement_of_bytes (by decide) (by decide) (by decide) (by decide) (by decide)
theorem beam : Statement .beam := statement_of_bytes (by decide) (by decide) (by decide) (by decide) (by decide)
theorem phb : Statement .phb := statement_of_bytes (by decide) (by decide) (by decide) (by decide) (by decide)
theorem cyc : Statement .cyc := statement_of_bytes (by decide) (by decide) (by decide) (by decide) (by decide)
theorem ibeg : Statement .ibeg := statement_of_bytes (by decide) (by decide) (by decide) (by decide) (by decide)
theorem tick : Statement .tick := statement_of_bytes (by decide) (by decide) (by decide) (by decide) (by decide)
theorem sample : Statement .sample := statement_of_bytes (by decide) (by decide) (by decide) (by decide) (by decide)
theorem reset : Statement .reset := statement_of_bytes (by decide) (by decide) (by decide) (by decide) (by decide)
theorem iend (n : Byte) : Statement (.iend n) :=
  statement_of_bytes (by simp [Instr.highByte]) (by simp [Instr.highByte]) (by simp [Instr.highByte]) (by simp [Instr.highByte]) (by simp [Instr.highByte])
theorem joy (k : BitVec 2) (v : Byte) : Statement (.joy k v) := by
  have hc : (Instr.joy k v).highByte.extractLsb' 5 3 = 5#3 := by
    simp only [Instr.highByte]
    decide +revert
  have hs : ((Instr.joy k v).highByte.extractLsb' 0 5).toNat < 5 := by
    clear hc
    simp only [Instr.highByte]
    revert k
    decide
  exact statement_of_bytes (by simp [hc]) (by simp [hc]) (by simp [hc]) (by simp [hc]) fun _ => hs
theorem psgin (v : Byte) : Statement (.psgin v) :=
  statement_of_bytes (by simp [Instr.highByte]) (by simp [Instr.highByte]) (by simp [Instr.highByte]) (by simp [Instr.highByte]) (by simp [Instr.highByte])

end Laws.EncodedWord

end Sys2Proof
end

