-- ==== Sys2Proof/Machine/Persist.lean ====
section
/-! DEFINITION. The order in which the block's state is persisted, and the widths (10_state.md R65). The widths R65 gives are
taken from it; the others are the OPEN parameter `SAVE_WIDTHS`. The order inside one of R65's groups is the order of this
model's fields (assumption log 18), and the CPU registers and working RAM that R65 puts before and after are outside the
block. -/

namespace Sys2Proof.Machine

/-- A persisted field: its value, and its byte width where R65 gives one. -/
structure SavedField where
  width : Option Nat
  value : Nat
  deriving DecidableEq, Repr

/-- Fields whose width is the OPEN parameter `SAVE_WIDTHS` (R65). -/
def savedOpen (vs : List Nat) : List SavedField := vs.map fun v => { width := none, value := v }

/-- Fields saved "as bytes" (R65). -/
def savedBytes (vs : List Nat) : List SavedField := vs.map fun v => { width := some 1, value := v }

/-- Fields saved "as 32-bit words" (R65). -/
def savedWords (vs : List Nat) : List SavedField := vs.map fun v => { width := some 4, value := v }

/-- Controller fields in R65's order: ports, directions, timer 1, timer 2, shift register, control and interrupt
registers, line levels. R65 gives none of their widths. -/
def Controller.persisted (c : Controller) : List SavedField :=
  savedOpen (
    [c.ora.toNat, c.orb.toNat, c.ddra.toNat, c.ddrb.toNat]
    ++ [c.t1on.toNat, c.t1arm.toNat, c.t1pb7.toNat, c.t1ll.toNat, c.t1lh.toNat, c.t1c.toNat]
    ++ [c.t2on.toNat, c.t2arm.toNat, c.t2ll.toNat, c.t2lh.toNat, c.t2c.toNat]
    ++ [c.sr.toNat, c.srcnt, c.srdiv.toNat, c.srph.toNat]
    ++ [c.acr.toNat, c.pcr.toNat, c.ifr.toNat, c.ier.toNat]
    ++ [c.ca2.toNat, c.cb2h.toNat, c.cb2s.toNat])

/-- Synthesizer fields in R65's order: status, envelope and output flags as bytes; periods, counts and volumes as 32-bit words;
the 16 raw registers; the 32 entries of the volume table. Counters are at least 1 between operations (R66), so `toNat` loses
nothing. DESIGN CHOICE (assumption log 18): R65 names neither `S.Step` nor `S.RNG`; the model persists both, last in the group
of 32-bit words, after the volumes. It counts `S.Attack` among the envelope flags. -/
def Synth.persisted (p : Params) (s : Synth) : List SavedField :=
  savedBytes [s.va.envSel.toNat, s.vb.envSel.toNat, s.vc.envSel.toNat, s.hold.toNat, s.alt.toNat, s.attack.toNat,
    s.holding.toNat, s.va.out.toNat, s.vb.out.toNat, s.vc.out.toNat, s.outN.toNat]
  ++ savedWords [s.va.per, s.vb.per, s.vc.per, s.perN, s.perE, s.va.cnt.toNat, s.vb.cnt.toNat, s.vc.cnt.toNat,
    s.cntN.toNat, s.cntE.toNat, s.va.vol, s.vb.vol, s.vc.vol, s.volE, s.step.toNat, s.rng.toNat]
  ++ savedOpen (s.r.toList.map BitVec.toNat)
  ++ savedOpen p.volTable.toList

/-- The persisted fields of the block in order, each with its byte width and its value (R65). -/
def State.persisted (s : State) : List (Nat × Nat) :=
  (s.c.persisted ++ s.syn.persisted s.cfg).mapIdx fun n f => (f.width.getD (Config.saveWidth n), f.value)

end Sys2Proof.Machine
end

