-- ==== Sys2Proof/Tests/Slice0.lean ====
section
/-! SUPPORT. The model's own tests. The expected results are those of 95_test_vectors.md (named beside each) or of a rule's
own example; each test runs one step. After them, one theorem for every obligation with hypotheses that shows a state and
operands meeting them, one clause at a time. -/

namespace Sys2Proof.Tests

open Sys2Proof.Machine Sys2Proof.Claim

/-! ### Helpers -/

/-- The reset state with the parts changed. -/
def st (c : Controller → Controller := id) (y : Synth → Synth := id) (b : Beam → Beam := id) (g : Glue → Glue := id) : State :=
  { State.reset with c := c State.reset.c, syn := y State.reset.syn, b := b State.reset.b, g := g State.reset.g }

/-- The result is a next state with property `p`. -/
def nextIs (r : Res) (p : State → Bool) : Bool :=
  match r with
  | .next t => p t
  | .fault _ => false
  | .refused _ => false

/-- The last byte given to the surroundings. -/
def lastByte (t : State) : Option Output := t.out.getLast?

theorem exists_of_nextIs {r : Res} {p : State → Bool} (h : nextIs r p = true) : ∃ t, r = .next t ∧ p t = true := by
  cases r with
  | next t => exact ⟨t, rfl, h⟩
  | fault e => cases h
  | refused e => cases h


/-! ### Well-formedness: one ill-formed word for each clause of 30_encoding.md R109 (95 section 2.1) -/

theorem test_wf_class : Word.classUsed 0xC000#16 = false ∧ Word.wellFormed 0xC000#16 = false ∧ decode 0xC000#16 = .error .reservedClass := by decide
theorem test_wf_class7 : Word.classUsed 0xE123#16 = false ∧ Word.wellFormed 0xE123#16 = false ∧ decode 0xE123#16 = .error .reservedClass := by decide
theorem test_wf_window_bit : Word.windowBitClear 0x1000#16 = false ∧ Word.wellFormed 0x1000#16 = false ∧ decode 0x1000#16 = .error .windowBitSet := by decide
theorem test_wf_window_bit_swr : Word.windowBitClear 0x7F00#16 = false ∧ Word.wellFormed 0x7F00#16 = false ∧ decode 0x7F00#16 = .error .windowBitSet := by decide
theorem test_wf_read_data : Word.readDataClear 0x0001#16 = false ∧ Word.wellFormed 0x0001#16 = false ∧ decode 0x0001#16 = .error .readWithData := by decide
theorem test_wf_read_data_srd : Word.readDataClear 0x4A01#16 = false ∧ Word.wellFormed 0x4A01#16 = false ∧ decode 0x4A01#16 = .error .readWithData := by decide
theorem test_wf_step : Word.stepUsed 0x8900#16 = false ∧ Word.wellFormed 0x8900#16 = false ∧ decode 0x8900#16 = .error .reservedStep := by decide
theorem test_wf_step_data : Word.stepDataClear 0x8001#16 = false ∧ Word.wellFormed 0x8001#16 = false ∧ decode 0x8001#16 = .error .stepWithData := by decide
theorem test_wf_step_data_reset : Word.stepDataClear 0x8801#16 = false ∧ Word.wellFormed 0x8801#16 = false ∧ decode 0x8801#16 = .error .stepWithData := by decide
theorem test_wf_host : Word.hostUsed 0xA500#16 = false ∧ Word.wellFormed 0xA500#16 = false ∧ decode 0xA500#16 = .error .reservedHost := by decide
theorem test_wf_accepts : Word.wellFormed 0x2E7F#16 = true ∧ Word.wellFormed 0x85FF#16 = true ∧ Word.wellFormed 0xA4FE#16 = true := by
  decide

/-! ### Decoding: every constructor by a word written out from the tables of 30_encoding.md section 2 -/

theorem test_decode_crd_lo :
    decode 0b0000000000000000#16 = .ok .crd0
    ∧ decode 0b0000000100000000#16 = .ok .crd1
    ∧ decode 0b0000001000000000#16 = .ok .crd2
    ∧ decode 0b0000001100000000#16 = .ok .crd3
    ∧ decode 0b0000010000000000#16 = .ok .crd4
    ∧ decode 0b0000010100000000#16 = .ok .crd5
    ∧ decode 0b0000011000000000#16 = .ok .crd6
    ∧ decode 0b0000011100000000#16 = .ok .crd7 := by decide

theorem test_decode_cwr_lo :
    decode 0b0010000010100101#16 = .ok (.cwr0 0xA5)
    ∧ decode 0b0010000110100101#16 = .ok (.cwr1 0xA5)
    ∧ decode 0b0010001010100101#16 = .ok (.cwr2 0xA5)
    ∧ decode 0b0010001110100101#16 = .ok (.cwr3 0xA5)
    ∧ decode 0b0010010010100101#16 = .ok (.cwr4 0xA5)
    ∧ decode 0b0010010110100101#16 = .ok (.cwr5 0xA5)
    ∧ decode 0b0010011010100101#16 = .ok (.cwr6 0xA5)
    ∧ decode 0b0010011110100101#16 = .ok (.cwr7 0xA5) := by decide

theorem test_decode_swr_lo :
    decode 0b0110000000111100#16 = .ok (.swr0 0x3C)
    ∧ decode 0b0110000100111100#16 = .ok (.swr1 0x3C)
    ∧ decode 0b0110001000111100#16 = .ok (.swr2 0x3C)
    ∧ decode 0b0110001100111100#16 = .ok (.swr3 0x3C)
    ∧ decode 0b0110010000111100#16 = .ok (.swr4 0x3C)
    ∧ decode 0b0110010100111100#16 = .ok (.swr5 0x3C)
    ∧ decode 0b0110011000111100#16 = .ok (.swr6 0x3C)
    ∧ decode 0b0110011100111100#16 = .ok (.swr7 0x3C) := by decide

theorem test_decode_crd_hi :
    decode 0b0000100000000000#16 = .ok .crd8
    ∧ decode 0b0000100100000000#16 = .ok .crd9
    ∧ decode 0b0000101000000000#16 = .ok .crdA
    ∧ decode 0b0000101100000000#16 = .ok .crdB
    ∧ decode 0b0000110000000000#16 = .ok .crdC
    ∧ decode 0b0000110100000000#16 = .ok .crdD
    ∧ decode 0b0000111000000000#16 = .ok .crdE
    ∧ decode 0b0000111100000000#16 = .ok .crdF := by decide

theorem test_decode_cwr_hi :
    decode 0b0010100010100101#16 = .ok (.cwr8 0xA5)
    ∧ decode 0b0010100110100101#16 = .ok (.cwr9 0xA5)
    ∧ decode 0b0010101010100101#16 = .ok (.cwrA 0xA5)
    ∧ decode 0b0010101110100101#16 = .ok (.cwrB 0xA5)
    ∧ decode 0b0010110010100101#16 = .ok (.cwrC 0xA5)
    ∧ decode 0b0010110110100101#16 = .ok (.cwrD 0xA5)
    ∧ decode 0b0010111010100101#16 = .ok (.cwrE 0xA5)
    ∧ decode 0b0010111110100101#16 = .ok (.cwrF 0xA5) := by decide

theorem test_decode_swr_hi :
    decode 0b0110100000111100#16 = .ok (.swr8 0x3C)
    ∧ decode 0b0110100100111100#16 = .ok (.swr9 0x3C)
    ∧ decode 0b0110101000111100#16 = .ok (.swrA 0x3C)
    ∧ decode 0b0110101100111100#16 = .ok (.swrB 0x3C)
    ∧ decode 0b0110110000111100#16 = .ok (.swrC 0x3C)
    ∧ decode 0b0110110100111100#16 = .ok (.swrD 0x3C)
    ∧ decode 0b0110111000111100#16 = .ok (.swrE 0x3C)
    ∧ decode 0b0110111100111100#16 = .ok (.swrF 0x3C) := by decide

theorem test_decode_srd :
    decode 0b0100000000000000#16 = .ok (.srd 0)
    ∧ decode 0b0100000100000000#16 = .ok (.srd 1)
    ∧ decode 0b0100011000000000#16 = .ok (.srd 6)
    ∧ decode 0b0100110100000000#16 = .ok (.srd 13)
    ∧ decode 0b0100111100000000#16 = .ok (.srd 15) := by decide

theorem test_decode_step :
    decode 0b1000000000000000#16 = .ok .pha
    ∧ decode 0b1000000100000000#16 = .ok .beam
    ∧ decode 0b1000001000000000#16 = .ok .phb
    ∧ decode 0b1000001100000000#16 = .ok .cyc
    ∧ decode 0b1000010000000000#16 = .ok .ibeg
    ∧ decode 0b1000010111111111#16 = .ok (.iend 0xFF)
    ∧ decode 0b1000011000000000#16 = .ok .tick
    ∧ decode 0b1000011100000000#16 = .ok .sample
    ∧ decode 0b1000100000000000#16 = .ok .reset := by decide

theorem test_decode_host :
    decode 0b1010000011001000#16 = .ok (.joy 0 200)
    ∧ decode 0b1010000111001000#16 = .ok (.joy 1 200)
    ∧ decode 0b1010001011001000#16 = .ok (.joy 2 200)
    ∧ decode 0b1010001111001000#16 = .ok (.joy 3 200)
    ∧ decode 0b1010010011111110#16 = .ok (.psgin 0xFE) := by decide

/-- The table-word decoder and the step, on the word of a row (95 section 2.1). -/
theorem test_table_word : decodeTableWord 16 0x2E7F = some (.cwrE 0x7F) ∧ decodeTableWord 16 0xC000 = none := by decide
theorem test_fetch_word : nextIs (step (State.reset.withFetchWord 16 0x2EC0)) (fun t => t.c.ier == 0x40#7) = true := by decide

/-! ### Controller reads (95 section 2.2; rule examples of 40_controller_bus.md section 2) -/

/-- B8. -/
theorem test_crd0 : nextIs (exec .crd0 (st (c := fun c => { c with orb := 0xFF })))
    (fun t => lastByte t == some (.byte 0xDF)) = true := by decide
/-- B9. -/
theorem test_crd0_toggle : nextIs (exec .crd0 (st (c := fun c => { c with acr := 0x80 })))
    (fun t => lastByte t == some (.byte 0x80)) = true := by decide
/-- B16. -/
theorem test_crd1 : nextIs (exec .crd1 (st (c := fun c => { c with pcr := 0x0A })))
    (fun t => !t.c.ca2) = true := by decide
/-- B13. -/
theorem test_crd2 : nextIs (exec .crd2 (st (c := fun c => { c with ddrb := 0xA5 })))
    (fun t => lastByte t == some (.byte 0xA5)) = true := by decide
/-- B13. -/
theorem test_crd3 : nextIs (exec .crd3 (st (c := fun c => { c with ddra := 0x5A })))
    (fun t => lastByte t == some (.byte 0x5A)) = true := by decide
/-- Section 2.3, timer-1 one-shot. -/
theorem test_crd4 : nextIs (exec .crd4 (st (c := fun c => { c with t1c := 0xFFFD, ifr := 0xC0, ier := 0x40, t1on := true })))
    (fun t => lastByte t == some (.byte 0xFD) && t.c.ifr == 0 && !t.c.t1on && t.c.t1pb7) = true := by decide
/-- R150's example. -/
theorem test_crd5 : nextIs (exec .crd5 (st (c := fun c => { c with t1c := 0x1234 })))
    (fun t => lastByte t == some (.byte 0x12) && t.c.t1c == 0x1234) = true := by decide
/-- B14. -/
theorem test_crd6 : nextIs (exec .crd6 (st (c := fun c => { c with t1ll := 0x11 })))
    (fun t => lastByte t == some (.byte 0x11)) = true := by decide
/-- R177, with E1's byte. -/
theorem test_crd7 : nextIs (exec .crd7 (st (c := fun c => { c with t1lh := 0x12 })))
    (fun t => lastByte t == some (.byte 0x12)) = true := by decide
/-- Section 2.3, timer-2 one-shot. -/
theorem test_crd8 : nextIs (exec .crd8 (st (c := fun c => { c with t2c := 0xFFFD, ifr := 0x20, t2on := true })))
    (fun t => lastByte t == some (.byte 0xFD) && t.c.ifr == 0 && !t.c.t2on) = true := by decide
/-- Section 2.3, timer-2 one-shot. -/
theorem test_crd9 : nextIs (exec .crd9 (st (c := fun c => { c with t2c := 0xFFFD, ifr := 0x20, t2on := true })))
    (fun t => lastByte t == some (.byte 0xFF) && t.c.ifr == 0x20 && t.c.t2on) = true := by decide
/-- Section 2.4, reading restarts. -/
theorem test_crdA : nextIs (exec .crdA (st (c := fun c => { c with sr := 0x2D, srcnt := 3, acr := 0x18 })))
    (fun t => lastByte t == some (.byte 0x2D) && t.c.srcnt == 0 && t.c.srph) = true := by decide
/-- E5. -/
theorem test_crdB : nextIs (exec .crdB (st (c := fun c => { c with acr := 0x5A })))
    (fun t => lastByte t == some (.byte 0x5A)) = true := by decide
/-- E7. -/
theorem test_crdC : nextIs (exec .crdC (st (c := fun c => { c with pcr := 0x0C })))
    (fun t => lastByte t == some (.byte 0x0C)) = true := by decide
/-- The flags B7 leaves. -/
theorem test_crdD : nextIs (exec .crdD (st (c := fun c => { c with ifr := 0xE0, ier := 0x20 })))
    (fun t => lastByte t == some (.byte 0xE0)) = true := by decide
/-- B3. -/
theorem test_crdE : nextIs (exec .crdE (st (c := fun c => { c with ier := 0x7A })))
    (fun t => lastByte t == some (.byte 0xFA)) = true := by decide
/-- B1. -/
theorem test_crdE_reset : nextIs (exec .crdE State.reset)
    (fun t => lastByte t == some (.byte 0x80)) = true := by decide
/-- B11. -/
theorem test_crdF : nextIs (exec .crdF (st (c := fun c => { c with orb := 0x08, ora := 0x12 }) (y := fun y => y.setReg 3 0x0F) (g := fun g => { g with sel := 3 })))
    (fun t => lastByte t == some (.byte 0x0F)) = true := by decide
/-- B12, B22. -/
theorem test_crdF_register : nextIs (exec .crdF (st (c := fun c => { c with ora := 0x12, pcr := 0x0A })))
    (fun t => lastByte t == some (.byte 0x12) && t.c.ca2) = true := by decide

/-! ### Controller writes (95 sections 1, 2.2, 2.7; rule examples of 40_controller_bus.md section 3) -/

/-- B18. -/
theorem test_cwr0 : nextIs (exec (.cwr0 0x00) (st (c := fun c => { c with pcr := 0xA0 })))
    (fun t => !t.c.cb2h) = true := by decide
/-- B11. -/
theorem test_cwr0_select : nextIs (exec (.cwr0 0x18) (st (c := fun c => { c with ora := 0x03 })))
    (fun t => t.g.sel == 3) = true := by decide
/-- V-Z. -/
theorem test_cwr1 : nextIs (exec (.cwr1 0x40) (st (c := fun c => { c with orb := 0x04 })))
    (fun t => t.b.xsh == 192 && t.b.zsh == 64) = true := by decide
/-- B17. -/
theorem test_cwr1_handshake : nextIs (exec (.cwr1 0x00) (st (c := fun c => { c with pcr := 0x08 })))
    (fun t => !t.c.ca2) = true := by decide
/-- R163's example. -/
theorem test_cwr2 : nextIs (exec (.cwr2 0x9F) State.reset)
    (fun t => t.c.ddrb == 0x9F && t.c.ddra == 0) = true := by decide
/-- B13. -/
theorem test_cwr3 : nextIs (exec (.cwr3 0x5A) State.reset)
    (fun t => t.c.ddra == 0x5A && t.c.ddrb == 0) = true := by decide
/-- B14. -/
theorem test_cwr4 : nextIs (exec (.cwr4 0x22) (st (c := fun c => { c with t1ll := 0x11, t1c := 0x7777 })))
    (fun t => t.c.t1ll == 0x22 && t.c.t1c == 0x7777) = true := by decide
/-- Section 2.3, timer-1 one-shot. -/
theorem test_cwr5 : nextIs (exec (.cwr5 0x00) (st (c := fun c => { c with t1ll := 3 })))
    (fun t => t.c.t1c == 3 && t.c.t1arm && t.c.t1on && !t.c.t1pb7) = true := by decide
/-- B14. -/
theorem test_cwr6 : nextIs (exec (.cwr6 0x11) (st (c := fun c => { c with t1lh := 0x55 })))
    (fun t => t.c.t1ll == 0x11 && t.c.t1lh == 0x55) = true := by decide
/-- E1. -/
theorem test_cwr7 : nextIs (exec (.cwr7 0x12) (st (c := fun c => { c with t1ll := 0x34, ifr := 0x40 })))
    (fun t => t.c.t1c == 0x1234 && t.c.ifr == 0 && !t.c.t1pb7 && t.c.t1on && t.c.t1arm) = true := by decide
/-- C1: with the parameter false a write at 0x7 is a plain latch write. -/
theorem test_cwr7_plain : nextIs (exec (.cwr7 0x12) { State.reset with cfg := { Params.thisSpec with t1LatchHiWriteStarts := false }, c := { Controller.atReset with ifr := 0x40 } })
    (fun t => t.c.t1lh == 0x12 && t.c.t1c == 0 && t.c.ifr == 0x40 && !t.c.t1on) = true := by decide
/-- Section 2.3, timer-2 one-shot. -/
theorem test_cwr8 : nextIs (exec (.cwr8 0x01) (st (c := fun c => { c with t2c := 0x7777 })))
    (fun t => t.c.t2ll == 1 && t.c.t2c == 0x7777 && !t.c.t2on) = true := by decide
/-- Section 2.3, timer-2 one-shot. -/
theorem test_cwr9 : nextIs (exec (.cwr9 0x00) (st (c := fun c => { c with t2ll := 1, ifr := 0x20 })))
    (fun t => t.c.t2c == 1 && t.c.t2on && t.c.t2arm && t.c.ifr == 0) = true := by decide
/-- Section 2.4. -/
theorem test_cwrA : nextIs (exec (.cwrA 0xA5) (st (c := fun c => { c with srcnt := 8, ifr := 0x04 })))
    (fun t => t.c.sr == 0xA5 && t.c.srcnt == 0 && t.c.srph && t.c.ifr == 0) = true := by decide
/-- R172's example. -/
theorem test_cwrB : nextIs (exec (.cwrB 0xC0) (st (c := fun c => { c with srcnt := 3 })))
    (fun t => t.c.acr == 0xC0 && t.c.srcnt == 3) = true := by decide
/-- B19. -/
theorem test_cwrC_low : nextIs (exec (.cwrC 0xCC) State.reset)
    (fun t => !t.c.ca2 && !t.c.cb2h) = true := by decide
/-- B20. -/
theorem test_cwrC_high : nextIs (exec (.cwrC 0xEE) (st (c := fun c => { c with ca2 := false, cb2h := false })))
    (fun t => t.c.ca2 && t.c.cb2h) = true := by decide
/-- B5. -/
theorem test_cwrD : nextIs (exec (.cwrD 0x40) (st (c := fun c => { c with ifr := 0x60 })))
    (fun t => t.c.ifr == 0x20) = true := by decide
/-- B3. -/
theorem test_cwrE_clear : nextIs (exec (.cwrE 0x05) (st (c := fun c => { c with ier := 0x7F })))
    (fun t => t.c.ier == 0x7A) = true := by decide
/-- B7. -/
theorem test_cwrE : nextIs (exec (.cwrE 0xA0) (st (c := fun c => { c with ifr := 0x60 })))
    (fun t => t.c.ifr == 0xE0 && t.c.ier == 0x20) = true := by decide
/-- V-BEAM step 3. -/
theorem test_cwrF : nextIs (exec (.cwrF 0x0A) (st (c := fun c => { c with orb := 0x01, pcr := 0x0A })))
    (fun t => t.b.xsh == 138 && t.b.dx == 10 && t.b.dy == 0 && t.c.ca2) = true := by decide

/-! ### Phases (95 sections 2.3 to 2.5) -/

/-- Timer-1 one-shot, cycle 4. -/
theorem test_pha_timer1 : nextIs (exec .pha (st (c := fun c => { c with t1c := 0, t1on := true, t1arm := true, t1pb7 := false, ier := 0x40 })))
    (fun t => t.c.t1c == 0xFFFF && t.c.ifr == 0xC0 && t.c.t1pb7 && !t.c.t1arm) = true := by decide
/-- Mode 0b110, cycle 1. -/
theorem test_pha_shift : nextIs (exec .pha (st (c := fun c => { c with sr := 0xA5, srcnt := 0, acr := 0x18 })))
    (fun t => t.c.sr == 0x4B && t.c.cb2s && t.c.srcnt == 1) = true := by decide
/-- Section 2.5. -/
theorem test_phb : nextIs (exec .phb (st (c := fun c => { c with pcr := 0x0A, ca2 := false })))
    (fun t => t.c.ca2) = true := by decide
/-- Section 2.5. -/
theorem test_phb_handshake : nextIs (exec .phb (st (c := fun c => { c with pcr := 0x08, ca2 := false })))
    (fun t => !t.c.ca2) = true := by decide

/-! ### Synthesizer (95 section 2.6; rule examples of 42_synth_registers.md and 43_synth_generators.md) -/

theorem test_srd : nextIs (exec (.srd 1) (st (y := fun y => y.setReg 1 0xF2)))
    (fun t => lastByte t == some (.byte 0xF2)) = true := by decide
theorem test_swr0 : nextIs (exec (.swr0 0x10) State.reset)
    (fun t => t.syn.va.per == 16 && t.syn.va.cnt == 16) = true := by decide
theorem test_swr1 : nextIs (exec (.swr1 0x01) (st (y := fun y => { y.setReg 0 0x10 with va := { y.va with per := 16, cnt := 11 } })))
    (fun t => t.syn.va.per == 272 && t.syn.va.cnt == 267) = true := by decide
theorem test_swr2 : nextIs (exec (.swr2 0xFF) (st (y := fun y => y.setReg 3 0x0F)))
    (fun t => t.syn.vb.per == 4095) = true := by decide
theorem test_swr3 : nextIs (exec (.swr3 0x0F) (st (y := fun y => y.setReg 2 0xFF)))
    (fun t => t.syn.vb.per == 4095) = true := by decide
/-- E3. -/
theorem test_swr4 : nextIs (exec (.swr4 0x00) (st (y := fun y => { y with vc := { y.vc with per := 9, cnt := 2 } })))
    (fun t => t.syn.vc.per == 1 && t.syn.vc.cnt == 1) = true := by decide
/-- E3. -/
theorem test_swr5 : nextIs (exec (.swr5 0x00) State.reset)
    (fun t => t.syn.vc.per == 1) = true := by decide
theorem test_swr6 : nextIs (exec (.swr6 0x1F) State.reset)
    (fun t => t.syn.perN == 31 && t.syn.cntN == 31) = true := by decide
/-- E3. -/
theorem test_swr6_high_bits : nextIs (exec (.swr6 0xE0) State.reset)
    (fun t => t.syn.perN == 1 && t.syn.reg 6 == 0xE0) = true := by decide
theorem test_swr7 : nextIs (exec (.swr7 0x3E) State.reset)
    (fun t => t.syn == State.reset.syn.setReg 7 0x3E) = true := by decide
/-- P3. -/
theorem test_swr8 : nextIs (exec (.swr8 0x0F) State.reset)
    (fun t => t.syn.va.vol == 4095 && !t.syn.va.envSel) = true := by decide
/-- R250: the envelope's volume after reset is 4095. -/
theorem test_swr9 : nextIs (exec (.swr9 0x10) State.reset)
    (fun t => t.syn.vb.envSel && t.syn.vb.vol == 4095) = true := by decide
/-- R113: level 1 is table entry 3. -/
theorem test_swrA : nextIs (exec (.swrA 0x01) State.reset)
    (fun t => t.syn.vc.vol == 33) = true := by decide
theorem test_swrB : nextIs (exec (.swrB 0x01) State.reset)
    (fun t => t.syn.perE == 2) = true := by decide
theorem test_swrC : nextIs (exec (.swrC 0xFF) (st (y := fun y => y.setReg 11 0xFF)))
    (fun t => t.syn.perE == 131070) = true := by decide
/-- E4. -/
theorem test_swrD : nextIs (exec (.swrD 0x0B) State.reset)
    (fun t => t.syn.hold && t.syn.alt && t.syn.attack == 0 && t.syn.step == 31 && !t.syn.holding) = true := by decide
/-- E8: the shape that ascends starts at 0. -/
theorem test_swrD_ascend : nextIs (exec (.swrD 0x0D) (st (y := fun y => { y with va := { y.va with envSel := true } })))
    (fun t => t.syn.attack == 31 && t.syn.hold && !t.syn.alt && t.syn.va.vol == 0) = true := by decide
theorem test_swrE : nextIs (exec (.swrE 0x12) State.reset)
    (fun t => t.syn == State.reset.syn.setReg 14 0x12) = true := by decide
theorem test_swrF : nextIs (exec (.swrF 0x34) State.reset)
    (fun t => t.syn == State.reset.syn.setReg 15 0x34) = true := by decide
/-- R281's example, tick 3. -/
theorem test_tick : nextIs (exec .tick (st (y := fun y => { y with va := { y.va with per := 3, cnt := 1 } })))
    (fun t => t.syn.va.out && t.syn.va.cnt == 3) = true := by decide
/-- R282: bits 0 and 1 equal, so no flip; (3 XOR 0x24000) >> 1. -/
theorem test_tick_noise : nextIs (exec .tick (st (y := fun y => { y with rng := 3, outN := false })))
    (fun t => t.syn.rng == 0x12001 && !t.syn.outN) = true := by decide
/-- The parameters of a sample are OPEN, so only the shape of its result can be shown. -/
theorem test_sample : ∃ t v, exec .sample State.reset = .next t ∧ t.out = [.sample v] ∧ t.c = Controller.atReset := ⟨_, _, rfl, rfl, rfl⟩

/-! ### Beam Engine and scheduler (95 sections 2.7 to 2.9) -/

/-- V-RESET. -/
theorem test_beam : nextIs (exec .beam State.reset)
    (fun t => t.b.tr && t.b.x0 == 16500 && t.b.y1 == 20500 && t.b.vdx == 0 && t.g.vec == []) = true := by decide
/-- V-BEAM-2 step 2. -/
theorem test_beam_recentre : nextIs (exec .beam (st (c := fun c => { c with ca2 := false, orb := 1 })
    (b := fun b => { b with xsh := 138, x := 17000, tr := true, x0 := 16500, y0 := 20500, x1 := 17000, y1 := 20500, vdx := 10 })))
    (fun t => t.g.vec == [⟨16500, 20500, 17000, 20500, 0⟩] && t.b.x == 16500 && t.b.x0 == 17000 && t.b.vdx == -500 && t.b.x1 == 16500) = true := by decide
/-- R360's example. -/
theorem test_cyc : nextIs (exec .cyc (st (c := fun c => { c with pcr := 0x0A, ca2 := false })))
    (fun t => t.b.x == 16500 && t.c.ca2) = true := by decide
/-- V-OOB-START step 1. -/
theorem test_cyc_out_of_bounds : nextIs (exec .cyc (st (c := fun c => { c with orb := 1 }) (b := fun b => { b with xsh := 138, x := -5 })))
    (fun t => !t.b.tr && t.b.x == 5) = true := by decide
theorem test_ibeg : nextIs (exec .ibeg (st (c := fun c => { c with ifr := 0xC0 })))
    (fun t => t.out == [.irqLines true false]) = true := by decide
theorem test_iend_flush : nextIs (exec (.iend 3) (st (g := fun g => { g with frame := 2, vec := [⟨1, 2, 3, 4, 5⟩] })))
    (fun t => t.g.frame == 50000 && t.g.vec == [] && t.out == [.frameFlush [⟨1, 2, 3, 4, 5⟩]]) = true := by decide
theorem test_iend_exact : nextIs (exec (.iend 3) (st (g := fun g => { g with frame := 3 })))
    (fun t => t.g.frame == 0 && t.out == []) = true := by decide
theorem test_reset : nextIs (exec .reset (st (c := fun c => { c with ifr := 0xC0, acr := 1 }) (y := fun y => { y with rng := 5 }) (b := fun b => { b with x := 1, tr := true })))
    (fun t => t.c == State.reset.c && t.syn.reg 14 == 0xFF && t.b.x == 16500 && !t.b.tr && t.out == []) = true := by decide
/-- R337's example, before the cycle. -/
theorem test_joy : nextIs (exec (.joy 3 200) State.reset)
    (fun t => t.b.axis 3 == 200 && t.b.jsh == 128 && !t.b.cmp) = true := by decide
theorem test_psgin : nextIs (exec (.psgin 0xFE) State.reset)
    (fun t => t.syn == State.reset.syn.setReg 14 0xFE) = true := by decide
/-- R335: the guard faults at the limit. -/
theorem test_beam_fault : exec .beam (st (c := fun c => { c with orb := 0x81 }) (b := fun b => { b with x := 2147483648 }))
    = .fault .beamPositionBeyondPosLimit := rfl
theorem test_overlap_refused : step { State.reset with pending := [.together 0x8600#16 0x8300#16] } = .refused .overlappingAgentSteps :=
  rfl

/-! ### Each obligation's hypotheses are met, clause by clause -/

/-- A state with a raised and enabled flag that meets the invariant. -/
def flagged : State := st (c := fun c => { c with ifr := 0xC0, ier := 0x40 })

theorem flagged_inv : flagged.Inv := ⟨by decide, by decide, by decide, by decide, by decide, by decide⟩

theorem test_meets_EncodeOfDecodeIsTheWord :
    decode 0x2E7F#16 = .ok (.cwrE 0x7F) := by decide
theorem test_meets_StepServesTheDecodedRequest :
    (State.reset.withFetchWord 16 0x8600).pending = .one 0x8600#16 :: [] ∧ decode 0x8600#16 = .ok .tick := by decide
theorem test_meets_StepRefusesWhatTheSpecRefuses :
    ((State.reset.withFetchWord 16 0xC000).pending = .one 0xC000#16 :: [] ∧ decode 0xC000#16 = .error .reservedClass)
    ∧ ({ State.reset with pending := [.together 0x8600 0x8300] } : State).pending = .together 0x8600 0x8300 :: []
    ∧ State.reset.pending = [] := by decide
theorem test_meets_Timer2HighAndFlagReadsChangeNothing :
    flagged.Inv ∧ flagged.c.ifr.getLsbD 7 = true := ⟨flagged_inv, by decide⟩
theorem test_meets_CompareAndDeltasFollowTheSamples :
    (∃ t, exec (.cwr0 0x00) State.reset = .next t ∧ (!t.b.cmp) = true)
    ∧ (∃ t, exec (.cwr1 0x7F) State.reset = .next t ∧ (t.b.xsh == 255) = true)
    ∧ (∃ t, exec (.cwrF 0x80) State.reset = .next t ∧ (t.b.xsh == 0) = true)
    ∧ (∃ t, exec .beam State.reset = .next t ∧ (t.b.dx == 0) = true)
    ∧ (∃ t, exec .cyc State.reset = .next t ∧ (t.b.dy == 0) = true)
    ∧ (∃ t, exec (.iend 1) State.reset = .next t ∧ ((1 : Byte).toNat == 1 && !t.b.cmp) = true) := 
  ⟨exists_of_nextIs (by decide), exists_of_nextIs (by decide), exists_of_nextIs (by decide), exists_of_nextIs (by decide), exists_of_nextIs (by decide), exists_of_nextIs (by decide)⟩
/-- Timer 1 armed and about to wrap, its flag raised already. -/
def firing : State := st (c := fun c => { c with ifr := 0xC0, ier := 0x40, t1on := true, t1arm := true })

theorem test_meets_AggregateFollowsEveryFlagOrEnableChange_clauses :
    fires firing.c ∧ firing.cfg.t1LatchHiWriteStarts = true
    ∧ (∃ t, exec .pha firing = .next t ∧ (t.c.ifr == 0xC0) = true)
    ∧ (∃ t, exec .cyc firing = .next t ∧ (t.c.ifr == 0xC0) = true)
    ∧ (0 < (1 : Byte).toNat ∧ execAll (times 0 .cyc) firing = .next firing)
    ∧ (∃ t, exec (.iend 1) firing = .next t ∧ (t.c.ifr == 0xC0) = true) := 
  ⟨by decide, by decide, exists_of_nextIs (by decide), exists_of_nextIs (by decide), ⟨by decide, rfl⟩, exists_of_nextIs (by decide)⟩
theorem test_meets_AggregateFollowsEveryFlagOrEnableChange :
    (∃ t, exec (.cwrD 0x40) flagged = .next t ∧ (t.c.ifr != flagged.c.ifr) = true)
    ∧ (∃ t, exec (.cwrE 0x40) flagged = .next t ∧ (t.c.ier != flagged.c.ier) = true)
    ∧ (∃ t, exec .reset flagged = .next t ∧ (t.c.ier != flagged.c.ier) = true) := 
  ⟨exists_of_nextIs (by decide), exists_of_nextIs (by decide), exists_of_nextIs (by decide)⟩
theorem test_meets_FlagsFallOnlyByTheListedRequests :
    flagged.c.ifr.getLsbD 6 = true ∧ (st (c := fun c => { c with ifr := 0x01 })).c.ifr.getLsbD 0 = true
    ∧ (∃ t, exec .crd4 flagged = .next t ∧ (!t.c.ifr.getLsbD 6) = true)
    ∧ (∃ t, exec (.cwr7 0) flagged = .next t ∧ (!t.c.ifr.getLsbD 6) = true)
    ∧ (∃ t, exec (.cwr7 0) { flagged with cfg := { Params.thisSpec with t1LatchHiWriteStarts := false } } = .next t ∧ (t.c.ifr.getLsbD 6) = true)
    ∧ (∃ t, exec (.cwrD 0x01) (st (c := fun c => { c with ifr := 0x01 })) = .next t ∧ (!t.c.ifr.getLsbD 0) = true)
    ∧ (∃ t, exec (.cwrD 0xBF) flagged = .next t ∧ (t.c.ifr.getLsbD 6) = true)
    ∧ (∃ t, exec .crdA (st (c := fun c => { c with ifr := 0x04 })) = .next t ∧ (!t.c.ifr.getLsbD 2) = true)
    ∧ (∃ t, exec (.cwr9 0) (st (c := fun c => { c with ifr := 0x20 })) = .next t ∧ (!t.c.ifr.getLsbD 5) = true) := 
  ⟨by decide, by decide, exists_of_nextIs (by decide), exists_of_nextIs (by decide), exists_of_nextIs (by decide), exists_of_nextIs (by decide), exists_of_nextIs (by decide), exists_of_nextIs (by decide), exists_of_nextIs (by decide)⟩
theorem test_meets_FlagsRiseOnlyInPhaseAAndEnablesOnlyByWrite :
    (∃ t, exec .pha (st (c := fun c => { c with t1on := true, t1arm := true })) = .next t ∧ (t.c.ifr.getLsbD 6) = true)
    ∧ (∃ t, exec .cyc (st (c := fun c => { c with t2on := true, t2arm := true })) = .next t ∧ (t.c.ifr.getLsbD 5) = true)
    ∧ (∃ t, exec (.iend 1) (st (c := fun c => { c with acr := 0x18, srcnt := 7 })) = .next t ∧ (t.c.ifr.getLsbD 2) = true)
    ∧ (∃ t, exec (.cwrE 0x80) State.reset = .next t ∧ (t.c.ier == 0) = true)
    ∧ (∃ t, exec (.cwrE 0x40) flagged = .next t ∧ (t.c.ier != flagged.c.ier) = true) := 
  ⟨exists_of_nextIs (by decide), exists_of_nextIs (by decide), exists_of_nextIs (by decide), exists_of_nextIs (by decide), exists_of_nextIs (by decide)⟩
/-- A Controller with one auxiliary control byte. -/
def withAcr (a : Byte) : State := st (c := fun c => { c with acr := a, srcnt := 7 })

theorem test_meets_InertShiftModesNeverShift :
    (mode (withAcr 0x00).c = 0 ∧ mode (withAcr 0x0C).c = 3 ∧ mode (withAcr 0x1C).c = 7) ∧ (withAcr 0x1C).c.srcnt < 8 := by decide
theorem test_meets_Timer1FlagRisesInPhaseANPlusOne :
    (0 ≤ 256 * (0 : Byte).toNat + (withAcr 0).c.t1ll.toNat)
    ∧ (1 = 256 * (0 : Byte).toNat + (withAcr 0).c.t1ll.toNat + 1 ∧ 256 * (0 : Byte).toNat + (withAcr 0).c.t1ll.toNat < 1)
    ∧ ¬ t1Free (withAcr 0).c := by decide
theorem test_meets_FreeRunToggleFlipsOncePerPeriod :
    t1Free (withAcr 0x40).c := by decide
theorem test_meets_Timer2FlagRisesOnceInPhaseANPlusOne :
    (withAcr 0x20).c.acr.toNat / 32 % 2 = 1
    ∧ (withAcr 0xDF).c.acr.toNat / 32 % 2 = 0
    ∧ 65535 ≤ 256 * (0xFF : Byte).toNat + (st (c := fun c => { c with t2ll := 0xFF })).c.t2ll.toNat
    ∧ 256 * (0xFF : Byte).toNat + (st (c := fun c => { c with t2ll := 0xFF })).c.t2ll.toNat < 65536 := by decide
theorem test_meets_ShiftOutSendsAByteInEightPhaseA :
    mode (withAcr 0x18).c = 6 ∧ (8 : Nat) ≤ 8 := by decide
theorem test_meets_ShiftPulsesComeAtTheDividedClock :
    mode (withAcr 0x04).c = 1 ∧ mode (withAcr 0x14).c = 5 := by decide
/-- A beam under way: a vector with velocity (10, 0) being traced at position (x, 20500), with the beam on or off. -/
def tracing (on tr : Bool) (x vdx : Int) : State :=
  st (c := fun c => { c with orb := 0x01, cb2h := on })
    (b := fun b => { b with xsh := 138, x := x, tr := tr, x0 := 16500, y0 := 20500, x1 := x, y1 := 20500, vdx := vdx })

theorem test_meets_BeamStepMovesOrFaultsAtTheLimit :
    let a := tracing true false 2147483637 10
    let z := tracing true false 2147483638 10
    ((a.b.x + (Claim.velocity a.cfg a.c a.b).1).natAbs < a.cfg.posLimit ∧ (a.b.y + (Claim.velocity a.cfg a.c a.b).2).natAbs < a.cfg.posLimit)
    ∧ ¬ ((z.b.x + (Claim.velocity z.cfg z.c z.b).1).natAbs < z.cfg.posLimit ∧ (z.b.y + (Claim.velocity z.cfg z.c z.b).2).natAbs < z.cfg.posLimit) := by decide
theorem test_meets_TracingFollowsItsStateMachine :
    (∃ t, exec .beam (tracing true false 0 10) = .next t ∧ (t.b.tr) = true)
    ∧ (∃ t, exec .beam (tracing false false 0 10) = .next t ∧ (!t.b.tr) = true)
    ∧ (∃ t, exec .beam (tracing true false 33000 10) = .next t ∧ (!t.b.tr) = true)
    ∧ (∃ t, exec .beam (tracing false true 32999 10) = .next t ∧ (!t.b.tr) = true)
    ∧ (∃ t, exec .beam (tracing true true 32999 11) = .next t ∧ (t.b.tr && t.b.x0 == 32999) = true)
    ∧ (∃ t, exec .beam (tracing true true 33000 11) = .next t ∧ (!t.b.tr) = true)
    ∧ (∃ t, exec .beam (tracing true true 32999 10) = .next t ∧ (t.b.tr && t.b.x0 == 16500) = true) := 
  ⟨exists_of_nextIs (by decide), exists_of_nextIs (by decide), exists_of_nextIs (by decide), exists_of_nextIs (by decide), exists_of_nextIs (by decide), exists_of_nextIs (by decide), exists_of_nextIs (by decide)⟩
theorem test_meets_TracingFollowsItsStateMachine_clauses :
    (beamOn (tracing true false 0 10).c = true ∧ inside Params.thisSpec 0 20500 ∧ inside Params.thisSpec 32999 20500 ∧ ¬ inside Params.thisSpec 33000 20500)
    ∧ beamOn (tracing false false 0 10).c = false ∧ Claim.velocity Params.thisSpec (tracing true true 32999 10).c (tracing true true 32999 10).b = (10, 0) := by decide
theorem test_meets_Timer1RampMovesTheBeamForExactlyNCycles :
    let s := st (c := fun c => { c with acr := 0x80, orb := 0x01, t1ll := 0xFF })
    s.c.acr.toNat / 128 = 1 ∧ ¬ t1Free s.c ∧ s.c.ca2 = true ∧ s.c.orb.toNat % 2 = 1
    ∧ s.b.x.natAbs + 255 * (256 * (0xFF : Byte).toNat + s.c.t1ll.toNat) < State.reset.cfg.posLimit
    ∧ s.b.y.natAbs + 255 * (256 * (0xFF : Byte).toNat + s.c.t1ll.toNat) < State.reset.cfg.posLimit := by decide
theorem test_meets_CycleCompletesInsideTheLimit :
    (tracing true false (-2147483392) 0).b.x.natAbs + 255 < State.reset.cfg.posLimit ∧ (tracing true false (-2147483392) 0).b.y.natAbs + 255 < State.reset.cfg.posLimit
    ∧ State.reset.cfg.maxX / 2 < State.reset.cfg.posLimit ∧ State.reset.cfg.maxY / 2 < State.reset.cfg.posLimit := by decide
theorem test_meets_InstructionEndRunsItsCyclesThenAccounts :
    (∃ u, execAll (times (2 : Byte).toNat .cyc) State.reset = .next u ∧ u.g.frame = 50000)
    ∧ (∃ u, execAll (times (0 : Byte).toNat .cyc) State.reset = .next u ∧ u.g.frame = 50000)
    ∧ State.reset.b.x.natAbs + 255 * (255 : Byte).toNat < State.reset.cfg.posLimit ∧ State.reset.b.y.natAbs + 255 * (255 : Byte).toNat < State.reset.cfg.posLimit
    ∧ State.reset.cfg.maxX / 2 + 255 * (255 : Byte).toNat < State.reset.cfg.posLimit ∧ State.reset.cfg.maxY / 2 + 255 * (255 : Byte).toNat < State.reset.cfg.posLimit := 
  ⟨⟨_, rfl, rfl⟩, ⟨_, rfl, rfl⟩, by decide, by decide, by decide, by decide⟩
theorem test_meets_InstructionBoundaryHandsOverTheAggregate :
    flagged.Inv := flagged_inv
theorem test_meets_RecordsGrowAsEmittedUntilTheFlush :
    (∃ t, exec .beam (tracing false true 32999 10) = .next t ∧ (t.g.vec == [⟨16500, 20500, 32999, 20500, 0⟩]) = true)
    ∧ (∃ t, exec (.iend 1) { tracing false true 32999 10 with g := { State.reset.g with frame := 0 } } = .next t ∧ (t.g.vec == [] && t.out.length == 2) = true) := 
  ⟨exists_of_nextIs (by decide), exists_of_nextIs (by decide)⟩
theorem test_meets_PortProtocolWritesTheRegister :
    State.reset.c.orb.toNat / 8 % 4 ≠ 2 ∧ (15 : Byte).toNat < 16 ∧ (15 : Byte).toNat ≠ 14 := by decide
/-- A Synthesizer with every counter at n, periods at 3, and the envelope at a step. -/
def counting (n : Int) (step : BitVec 5) (holding : Bool) : State :=
  st (y := fun y => { y with
    va := { y.va with per := 3, cnt := n }, cntN := n, cntE := n, perE := 3, step := step, holding := holding })

theorem test_meets_ToneVoicesFlipOncePerPeriod :
    ((counting 1 0 false).syn.voice 0).cnt - 1 ≤ 0 ∧ 0 < ((counting 2 0 false).syn.voice 0).cnt - 1
    ∧ 1 ≤ ((counting 3 0 false).syn.voice 0).per ∧ 1 ≤ ((counting 3 0 false).syn.voice 0).cnt
    ∧ ((counting 3 0 false).syn.voice 0).cnt = ((counting 3 0 false).syn.voice 0).per := by decide
theorem test_meets_NoiseRegisterShiftsOnUnderflow :
    0 < (counting 2 0 false).syn.cntN - 1 ∧ (counting 1 0 false).syn.cntN - 1 ≤ 0 ∧ (counting 1 0 false).syn.rng ≠ 0#17 := by decide
theorem test_meets_EnvelopeStepsOnUnderflow :
    ((counting 1 0 true).syn.holding = true ∧ 0 < (counting 2 0 false).syn.cntE - 1)
    ∧ ((counting 1 0 false).syn.holding = false ∧ (counting 1 0 false).syn.cntE - 1 ≤ 0 ∧ (counting 1 0 false).syn.step.toNat = 0)
    ∧ ((counting 1 1 false).syn.cntE - 1 ≤ 0 ∧ 0 < (counting 1 1 false).syn.step.toNat) := by decide
theorem test_meets_EnvelopeTakesThirtyTwoStepsOfOnePeriod :
    1 ≤ (counting 1 0 false).syn.perE ∧ 95 < 32 * (counting 1 0 false).syn.perE ∧ 96 = 32 * (counting 1 0 false).syn.perE := by decide
theorem test_meets_DirectionRegistersAffectNothingElse :
    Instr.pha ≠ .crd2 ∧ Instr.pha ≠ .crd3 ∧ (∀ d, Instr.pha ≠ .cwr2 d) ∧ (∀ d, Instr.pha ≠ .cwr3 d) ∧ Instr.pha ≠ .reset := by simp
theorem test_meets_ResetGivesTheSpecsValues :
    flagged.cfg = State.reset.cfg ∧ ∃ t, exec .reset flagged = .next t ∧ t.c.ifr = 0 := ⟨rfl, _, rfl, rfl⟩
theorem test_meets_EveryStepKeepsTheInvariant :
    flagged.Inv ∧ (flagged.withFetchWord 16 0x8000).Inv
    ∧ ∃ t, step (flagged.withFetchWord 16 0x8000) = .next t ∧ t.c.srdiv = 0 := ⟨flagged_inv, flagged_inv, _, rfl, rfl⟩

end Sys2Proof.Tests
end

