-- ==== Sys2Proof/Proofs/FlagAndEnableWrites.lean ====
section
/-! Controller write words decode to their requests, and the writes at 0xD and 0xE act on single flags and enables. -/

namespace Sys2Proof

/-- The word of a Controller write decodes to the write of its offset and data byte (30_encoding.md R104). -/
theorem decode_ctrlWriteWord (k : BitVec 4) (d : Byte) :
    decode (BitVec.ofNat 16 (0x2000 + 256 * k.toNat + d.toNat)) = .ok (ctrlWriteInstr k d) := by
  have hk := k.isLt
  have hd := d.isLt
  generalize hw : BitVec.ofNat 16 (0x2000 + 256 * k.toNat + d.toNat) = w
  have hn : w.toNat = 0x2000 + 256 * k.toNat + d.toNat := by
    rw [← hw, BitVec.toNat_ofNat]
    omega
  have hcls : (w.extractLsb' 13 3).toNat = 1 := by
    rw [BitVec.extractLsb'_toNat, Nat.shiftRight_eq_div_pow]
    omega
  have hwindow : w.getLsbD 12 = false := by
    rw [BitVec.getLsbD, Nat.testBit_eq_decide_div_mod_eq]
    exact decide_eq_false (by omega)
  have hoffset : w.extractLsb' 8 4 = k := by
    apply BitVec.eq_of_toNat_eq
    rw [BitVec.extractLsb'_toNat, Nat.shiftRight_eq_div_pow]
    omega
  have hdata : w.extractLsb' 0 8 = d := by
    apply BitVec.eq_of_toNat_eq
    rw [BitVec.extractLsb'_toNat, Nat.shiftRight_eq_div_pow]
    omega
  simp only [decode, decodeWindow, hcls, hwindow, hoffset, hdata]
  rfl

end Sys2Proof

namespace Sys2Proof.Machine

open Sys2Proof.Claim

/-- The aggregate is set exactly if some flag and its enable both are (10_state.md R32). -/
theorem irqAggregate_iff (f : Byte) (e : BitVec 7) :
    irqAggregate f e = true ↔ ∃ i, i < 7 ∧ f.getLsbD i = true ∧ e.getLsbD i = true := by
  have hbit : ∀ i, i < 7 → (f.extractLsb' 0 7 &&& e).getLsbD i = (f.getLsbD i && e.getLsbD i) := fun i hi => by
    simp [hi]
  rw [irqAggregate, bne_iff_ne]
  constructor
  · intro hne
    by_contra hnone
    refine hne (BitVec.eq_of_getLsbD_eq fun i hi => ?_)
    rw [hbit i hi, BitVec.getLsbD_zero]
    exact Bool.eq_false_iff.2 fun h => hnone ⟨i, hi, by simpa using h⟩
  · rintro ⟨i, hi, hf, he⟩ hzero
    have := hbit i hi
    simp [hzero, hf, he] at this

/-- `IrqUpdate()` leaves the aggregate of the flags and enables in bit 7 (40_controller_bus.md R140). -/
theorem irqUpdate_aggregated (c : Controller) : aggregated (irqUpdate c).ifr (irqUpdate c).ier := by
  rw [aggregated, irqUpdate_aggregate]
  exact irqAggregate_iff ..

theorem clearFlags_aggregated (m : Byte) (c : Controller) : aggregated (clearFlags m c).ifr c.ier :=
  irqUpdate_aggregated _

theorem writeEnables_aggregated (d : Byte) (c : Controller) :
    aggregated (writeEnables d c).ifr (writeEnables d c).ier := irqUpdate_aggregated _

/-- An enable after a write at 0xE: bit 7 of the byte sets or clears those its bits 6:0 name (30_encoding.md R111). -/
theorem writeEnables_enable (d : Byte) (c : Controller) {i : Nat} (h : i < 7) :
    (writeEnables d c).ier.getLsbD i
      = if d.getLsbD 7 then c.ier.getLsbD i || d.getLsbD i else c.ier.getLsbD i && !d.getLsbD i := by
  simp only [writeEnables, irqUpdate]
  split <;> simp [h]

/-- The mask of a write at 0xD ignores bit 7 of the byte only (30_encoding.md R111). -/
theorem flagMask_flag (d : Byte) {i : Nat} (h : i < 7) : (d &&& 0x7F#8).getLsbD i = d.getLsbD i := by
  interval_cases i <;> simp

/-- `CWR D` clears flags and changes only the flag byte (40_controller_bus.md R174). -/
theorem exec_cwrD (d : Byte) (s : State) :
    exec (.cwrD d) s = .next { s with c := { s.c with ifr := (clearFlags (d &&& 0x7F#8) s.c).ifr } } := rfl

/-- `CWR E` writes the enables and changes only them and the flag byte (40_controller_bus.md R175). -/
theorem exec_cwrE (d : Byte) (s : State) :
    exec (.cwrE d) s
      = .next { s with c := { s.c with ifr := (writeEnables d s.c).ifr, ier := (writeEnables d s.c).ier } } := rfl

end Sys2Proof.Machine

namespace Sys2Proof

open Sys2Proof.Machine

/-- Settles O21: both words by the decoding of Controller writes, the registers bit by bit by the laws of `clearFlags` and
`writeEnables`. -/
theorem flagAndEnableWritesActBitByBit : Obligations.FlagAndEnableWritesActBitByBit := by
  intro s d
  refine ⟨⟨decode_ctrlWriteWord 13#4 d, _, exec_cwrD d s, fun i hi => ?_, clearFlags_aggregated _ s.c⟩,
    decode_ctrlWriteWord 14#4 d, _, _, exec_cwrE d s, fun i hi => writeEnables_flag d s.c hi,
    fun i hi => writeEnables_enable d s.c hi, writeEnables_aggregated d s.c⟩
  rw [clearFlags_flag _ _ hi, flagMask_flag d hi]

end Sys2Proof
end

