-- ==== Sys2Proof/Proofs/CounterLowReads.lean ====
section
/-! Controller read words decode to their requests, and the two reads that stop a timer. -/

namespace Sys2Proof

/-- The word of a Controller read decodes to the read of its offset (30_encoding.md R103). -/
theorem decode_ctrlReadWord (k : BitVec 4) : decode (BitVec.ofNat 16 (256 * k.toNat)) = .ok (ctrlReadInstr k) := by
  have hk := k.isLt
  generalize hw : BitVec.ofNat 16 (256 * k.toNat) = w
  have hn : w.toNat = 256 * k.toNat := by
    rw [← hw, BitVec.toNat_ofNat]
    omega
  have hcls : (w.extractLsb' 13 3).toNat = 0 := by
    rw [BitVec.extractLsb'_toNat, Nat.shiftRight_eq_div_pow]
    omega
  have hwindow : w.getLsbD 12 = false := by
    rw [BitVec.getLsbD, Nat.testBit_eq_decide_div_mod_eq]
    exact decide_eq_false (by omega)
  have hoffset : w.extractLsb' 8 4 = k := by
    apply BitVec.eq_of_toNat_eq
    rw [BitVec.extractLsb'_toNat, Nat.shiftRight_eq_div_pow]
    omega
  have hdata : w.extractLsb' 0 8 = 0#8 := by
    apply BitVec.eq_of_toNat_eq
    rw [BitVec.extractLsb'_toNat, Nat.shiftRight_eq_div_pow, BitVec.toNat_ofNat]
    omega
  simp only [decode, decodeWindow, hcls, hwindow, hoffset, hdata]
  rfl

end Sys2Proof

namespace Sys2Proof.Machine

open Sys2Proof.Claim

/-- The byte read at a low offset, in arithmetic. -/
theorem counterLow_eq_mod (c : Word) : counterLow c = BitVec.ofNat 8 (c.toNat % 256) := by
  apply BitVec.eq_of_toNat_eq
  rw [counterLow, BitVec.extractLsb'_toNat, BitVec.toNat_ofNat, Nat.mod_mod, Nat.shiftRight_zero]

/-- Clearing the one flag `n` gives the flag byte with flag `n` down (40_controller_bus.md R140). -/
theorem clearFlags_flagFell {n : Nat} {m : Byte} (hn : n < 7) (hm : ∀ i, i < 7 → m.getLsbD i = decide (i = n))
    (c : Controller) : flagFell n c (clearFlags m c).ifr := by
  refine ⟨?_, fun i hi hne => ?_, clearFlags_aggregated m c⟩
  · simp [clearFlags_flag m c hn, hm n hn]
  · simp [clearFlags_flag m c hi, hm i hi, hne]

/-- Stopping timer 1 takes its flag down (40_controller_bus.md R149). -/
theorem t1Stop_flagFell (c : Controller) : flagFell 6 c c.t1Stop.ifr :=
  clearFlags_flagFell (m := flagT1) (by decide) (by decide) { c with t1on := false, t1arm := false, t1pb7 := true }

/-- Stopping timer 2 takes its flag down (40_controller_bus.md R153). -/
theorem t2Stop_flagFell (c : Controller) : flagFell 5 c c.t2Stop.ifr :=
  clearFlags_flagFell (m := flagT2) (by decide) (by decide) { c with t2on := false, t2arm := false }

/-- `CRD 4` stops timer 1 and returns its counter's low byte; all else stays (40_controller_bus.md R149). -/
theorem exec_crd4 (s : State) :
    exec .crd4 s = .next { s with
      c := { s.c with ifr := s.c.t1Stop.ifr, t1on := false, t1arm := false, t1pb7 := true }
      out := s.out ++ [.byte (BitVec.ofNat 8 (s.c.t1c.toNat % 256))] } := by
  rw [← counterLow_eq_mod]
  rfl

/-- `CRD 8` stops timer 2 and returns its counter's low byte; all else stays (40_controller_bus.md R153). -/
theorem exec_crd8 (s : State) :
    exec .crd8 s = .next { s with
      c := { s.c with ifr := s.c.t2Stop.ifr, t2on := false, t2arm := false }
      out := s.out ++ [.byte (BitVec.ofNat 8 (s.c.t2c.toNat % 256))] } := by
  rw [← counterLow_eq_mod]
  rfl

end Sys2Proof.Machine

namespace Sys2Proof

open Sys2Proof.Machine

/-- Settles O12: both words by the decoding of Controller reads, the flag byte by the laws of `clearFlags`. -/
theorem counterLowReadsStopTheTimer : Obligations.CounterLowReadsStopTheTimer := fun s =>
  ⟨⟨decode_ctrlReadWord 4#4, _, t1Stop_flagFell s.c, exec_crd4 s⟩,
    decode_ctrlReadWord 8#4, _, t2Stop_flagFell s.c, exec_crd8 s⟩

end Sys2Proof
end

