-- ==== Sys2Proof/Proofs/PlainAccesses.lean ====
section
/-! The Controller reads that only return a register, and the writes that only store their byte. -/

namespace Sys2Proof.Machine

/-- The byte read at a high offset, in arithmetic. -/
theorem counterHigh_eq_div (c : Word) : counterHigh c = BitVec.ofNat 8 (c.toNat / 256) := by
  apply BitVec.eq_of_toNat_eq
  rw [counterHigh, BitVec.extractLsb'_toNat, Nat.shiftRight_eq_div_pow, BitVec.toNat_ofNat]

/-- The byte `CRD E` returns is the enables below a bit 7 of 1 (40_controller_bus.md R159). -/
theorem enableByte_eq_add (e : BitVec 7) : (0x80#8 ||| e.setWidth 8) = BitVec.ofNat 8 (128 + e.toNat) := by
  have hor : 128 ||| e.toNat = 128 + e.toNat := (Nat.two_pow_add_eq_or_of_lt (i := 7) e.isLt 1).symm
  rw [← hor, BitVec.ofNat_or, BitVec.ofNat_toNat]

/-- `CRD 5` returns the high byte of timer 1's counter (40_controller_bus.md R150). -/
theorem exec_crd5 (s : State) :
    exec .crd5 s = .next { s with out := s.out ++ [.byte (BitVec.ofNat 8 (s.c.t1c.toNat / 256))] } := by
  rw [← counterHigh_eq_div]
  rfl

/-- `CRD E` returns the enables (40_controller_bus.md R159). -/
theorem exec_crdE (s : State) :
    exec .crdE s = .next { s with out := s.out ++ [.byte (BitVec.ofNat 8 (128 + s.c.ier.toNat))] } := by
  rw [← enableByte_eq_add]
  rfl

end Sys2Proof.Machine

namespace Sys2Proof

open Sys2Proof.Machine

/-- Settles O8: each word by the decoding of Controller reads; six of the reads give a register as it stands. -/
theorem plainReadsReturnTheirRegister : Obligations.PlainReadsReturnTheirRegister := fun s =>
  ⟨⟨decode_ctrlReadWord 2#4, rfl⟩, ⟨decode_ctrlReadWord 3#4, rfl⟩, ⟨decode_ctrlReadWord 5#4, exec_crd5 s⟩,
    ⟨decode_ctrlReadWord 6#4, rfl⟩, ⟨decode_ctrlReadWord 7#4, rfl⟩, ⟨decode_ctrlReadWord 11#4, rfl⟩,
    ⟨decode_ctrlReadWord 12#4, rfl⟩, ⟨decode_ctrlReadWord 14#4, exec_crdE s⟩⟩

/-- Settles O14: each word by the decoding of Controller writes; each write is one register's update by definition. -/
theorem plainWritesStoreTheirByte : Obligations.PlainWritesStoreTheirByte := fun _ d =>
  ⟨⟨decode_ctrlWriteWord 2#4 d, rfl⟩, ⟨decode_ctrlWriteWord 3#4 d, rfl⟩, ⟨decode_ctrlWriteWord 6#4 d, rfl⟩,
    ⟨decode_ctrlWriteWord 8#4 d, rfl⟩, ⟨decode_ctrlWriteWord 11#4 d, rfl⟩⟩

end Sys2Proof
end

