-- ==== Sys2Proof/Proofs/InertShiftModes.lean ====
section
/-! What Phase A leaves of the shift register in the modes that never shift, and runs of Phase A alone. -/

namespace Sys2Proof.Machine

open Sys2Proof.Claim

/-- Requests for Phase A alone iterate it on the Controller (41_controller_cycle.md R200). -/
theorem execAll_times_pha (n : Nat) (s : State) : execAll (times n .pha) s = .next (s.mapC Controller.phaseA^[n]) := by
  induction n generalizing s with
  | zero => rfl
  | succ n ih => exact ih (s.mapC Controller.phaseA)

/-- The mode field that selects the shift mode, in arithmetic (30_encoding.md R115). -/
theorem shiftField_toNat (acr : Byte) : (acr.extractLsb' 2 3).toNat = acr.toNat / 4 % 8 := by
  rw [BitVec.extractLsb'_toNat, Nat.shiftRight_eq_div_pow]

namespace Controller

/-- The disabled mode and the two external-clock modes (41_controller_cycle.md R205, R208, R212). -/
abbrev InertMode (c : Controller) : Prop := mode c = 0 ∨ mode c = 3 ∨ mode c = 7

/-- `d` has the mode register, the shift register with its count and line, and the shift flag of `c`. -/
structure SameShifter (c d : Controller) : Prop where
  acr : d.acr = c.acr
  sr : d.sr = c.sr
  srcnt : d.srcnt = c.srcnt
  cb2s : d.cb2s = c.cb2s
  flag : d.ifr.getLsbD 2 = c.ifr.getLsbD 2

theorem SameShifter.refl (c : Controller) : SameShifter c c := ⟨rfl, rfl, rfl, rfl, rfl⟩

theorem SameShifter.trans {a b c : Controller} (h : SameShifter a b) (k : SameShifter b c) : SameShifter a c :=
  ⟨k.acr.trans h.acr, k.sr.trans h.sr, k.srcnt.trans h.srcnt, k.cb2s.trans h.cb2s, k.flag.trans h.flag⟩

theorem SameShifter.inertMode {c d : Controller} (h : SameShifter c d) (hm : c.InertMode) : d.InertMode := by
  rw [InertMode, mode, h.acr]
  exact hm

/-- Raising a flag other than the shift flag leaves the shifter. -/
theorem SameShifter.raiseFlag {c d : Controller} {m : Byte} (h : SameShifter c d) (hm : m.getLsbD 2 = false) :
    SameShifter c (raiseFlag m d) :=
  ⟨h.acr, h.sr, h.srcnt, h.cb2s, by rw [raiseFlag_flag m d (by decide), hm, Bool.or_false, h.flag]⟩

theorem timer1Step_sameShifter (c : Controller) : SameShifter c c.timer1Step := by
  rcases timer1Step_cases c with ⟨-, e⟩ | ⟨-, -, e⟩ | ⟨-, -, -, e⟩ | ⟨-, -, -, -, e⟩ | ⟨-, -, -, -, e⟩ <;> rw [e]
  · exact .refl c
  · exact ⟨rfl, rfl, rfl, rfl, rfl⟩
  · exact .raiseFlag ⟨rfl, rfl, rfl, rfl, rfl⟩ (by decide)
  · exact .raiseFlag ⟨rfl, rfl, rfl, rfl, rfl⟩ (by decide)
  · exact ⟨rfl, rfl, rfl, rfl, rfl⟩

theorem timer2Step_sameShifter (c : Controller) : SameShifter c c.timer2Step := by
  rcases timer2Step_cases c with ⟨-, e⟩ | ⟨-, -, -, e⟩ | ⟨-, -, -, -, e⟩ <;> rw [e]
  · exact .refl c
  · exact ⟨rfl, rfl, rfl, rfl, rfl⟩
  · exact .raiseFlag ⟨rfl, rfl, rfl, rfl, rfl⟩ (by decide)

theorem dividerStep_sameShifter (c : Controller) : SameShifter c c.dividerStep.1 := by
  rcases dividerStep_cases c with ⟨-, e⟩ | ⟨-, e⟩ <;> rw [e] <;> exact ⟨rfl, rfl, rfl, rfl, rfl⟩

/-- In an inert mode the shifter does nothing, pulse or not (41_controller_cycle.md R205, R208, R212). -/
theorem shiftByMode_of_inertMode {c : Controller} (p : Bool) (h : c.InertMode) : c.shiftByMode p = c := by
  rcases h with h | h | h <;> simp only [shiftByMode, shiftMode, shiftField_toNat, h]

/-- In an inert mode the shift step does nothing: the count never comes to 8 (41_controller_cycle.md R204). -/
theorem shiftStep_of_inertMode {c : Controller} (p : Bool) (h : c.InertMode) : c.shiftStep p = c := by
  have hmode := shiftByMode_of_inertMode p h
  rcases shiftStep_cases p c with ⟨-, e⟩ | ⟨-, -, e⟩ | ⟨hlt, h8, -⟩
  · exact e
  · exact e.trans hmode
  · rw [hmode] at h8
    omega

/-- Phase A leaves the shifter in an inert mode: the timers and the divider have no part in it. -/
theorem phaseA_sameShifter {c : Controller} (h : c.InertMode) : SameShifter c c.phaseA := by
  have hclocks : SameShifter c c.timer1Step.timer2Step.dividerStep.1 :=
    ((timer1Step_sameShifter c).trans (timer2Step_sameShifter _)).trans (dividerStep_sameShifter _)
  rw [phaseA, shiftStep_of_inertMode _ (hclocks.inertMode h)]
  exact hclocks

theorem iterate_phaseA_sameShifter {c : Controller} (h : c.InertMode) (n : Nat) : SameShifter c (phaseA^[n] c) :=
  Function.Iterate.rec (SameShifter c) (.refl c) (fun _ hd => hd.trans (phaseA_sameShifter (hd.inertMode h))) n

end Controller

end Sys2Proof.Machine

namespace Sys2Proof

open Sys2Proof.Machine

/-- Settles O27: a run of Phase A iterates it on the Controller, and in an inert mode each leaves the shifter. -/
theorem inertShiftModesNeverShift : Obligations.InertShiftModesNeverShift := by
  intro s n hmode _
  have h := Controller.iterate_phaseA_sameShifter hmode n
  exact ⟨_, execAll_times_pha n s, h.sr, h.srcnt, h.cb2s, h.flag⟩

end Sys2Proof
end

