-- ==== Sys2Proof/Proofs/TonePeriods.lean ====
section
/-! A tone voice under ticks: the tone step alone moves its counter and output, and over a full period it flips the output. -/

namespace Sys2Proof.Machine

open Sys2Proof.Claim

/-- `w` has the period, the counter and the output of `v`; its volume and high-time count may differ. -/
structure Voice.SameTone (v w : Voice) : Prop where
  per : w.per = v.per
  cnt : w.cnt = v.cnt
  out : w.out = v.out

theorem Voice.SameTone.refl (v : Voice) : SameTone v v := ⟨rfl, rfl, rfl⟩

theorem Voice.SameTone.trans {u v w : Voice} (h : SameTone u v) (k : SameTone v w) : SameTone u w :=
  ⟨k.per.trans h.per, k.cnt.trans h.cnt, k.out.trans h.out⟩

namespace Synth

open Voice (SameTone)

/-! ### The tone step -/

/-- On an underflow the period is added back and the output flips (43_synth_generators.md R281). -/
theorem toneStep_of_underflow {v : Voice} (h : v.cnt - 1 ≤ 0) :
    toneStep v = { v with cnt := v.cnt - 1 + v.per, out := !v.out } := if_pos h

/-- Short of an underflow only the counter moves (43_synth_generators.md R281). -/
theorem toneStep_of_running {v : Voice} (h : 0 < v.cnt - 1) : toneStep v = { v with cnt := v.cnt - 1 } :=
  if_neg (not_le.2 h)

theorem toneStep_cnt_pos {v : Voice} (hper : 1 ≤ v.per) (hcnt : 1 ≤ v.cnt) : 1 ≤ (toneStep v).cnt := by
  by_cases h : v.cnt - 1 ≤ 0
  · simp only [toneStep_of_underflow h]
    omega
  · simp only [toneStep_of_running (not_le.1 h)]
    omega

/-- The tone step reads the period, the counter and the output only. -/
theorem toneStep_sameTone {v w : Voice} (h : SameTone v w) : SameTone (toneStep v) (toneStep w) := by
  obtain ⟨hper, hcnt, hout⟩ := h
  by_cases hu : v.cnt - 1 ≤ 0
  · rw [toneStep_of_underflow hu, toneStep_of_underflow (hcnt ▸ hu)]
    exact ⟨hper, by simp only [hcnt, hper], congrArg not hout⟩
  · rw [toneStep_of_running (not_le.1 hu), toneStep_of_running (hcnt ▸ not_le.1 hu)]
    exact ⟨hper, congrArg (· - 1) hcnt, hout⟩

/-- Fewer tone steps than the counter only count down. -/
theorem iterate_toneStep_of_lt {v : Voice} {n : Nat} (h : n < v.cnt) :
    toneStep^[n] v = { v with cnt := v.cnt - n } := by
  induction n with
  | zero => simp
  | succ n ih =>
    rw [Function.iterate_succ_apply', ih (by omega), toneStep_of_running (by simp only; omega)]
    simp only [Nat.cast_succ, sub_sub]

/-- One period of tone steps from a full counter flips the output, and the counter is full again. -/
theorem iterate_toneStep_per {v : Voice} (hper : 1 ≤ v.per) (hfull : v.cnt = v.per) :
    toneStep^[v.per] v = { v with out := !v.out } := by
  obtain ⟨q, hq⟩ := Nat.exists_eq_add_of_le' hper
  rw [hq, Function.iterate_succ_apply', iterate_toneStep_of_lt (by omega), toneStep_of_underflow (by simp only; omega)]
  dsimp only
  congr 1
  omega

/-- After m periods from a full counter the output is flipped exactly if m is odd. -/
theorem iterate_toneStep_mul_per {v : Voice} (m : Nat) (hper : 1 ≤ v.per) (hfull : v.cnt = v.per) :
    toneStep^[m * v.per] v = { v with out := if m % 2 = 0 then v.out else !v.out } := by
  induction m generalizing v with
  | zero => simp
  | succ m ih =>
    rw [Nat.succ_mul, Function.iterate_add_apply, iterate_toneStep_per hper hfull]
    refine (ih (v := { v with out := !v.out }) hper hfull).trans ?_
    rcases Nat.mod_two_eq_zero_or_one m with h | h <;> simp [Nat.add_mod, h]

/-! ### A tick's other steps leave the tone -/

@[simp] theorem noiseStep_voice (s : Synth) (k : Fin 3) : s.noiseStep.voice k = s.voice k := by
  simp only [noiseStep]
  split <;> rfl

@[simp] theorem envDescend_voice (s : Synth) (k : Fin 3) : s.envDescend.voice k = s.voice k := by
  unfold envDescend envBottom
  split
  · split <;> rfl
  · rfl

theorem followEnv_sameTone (e : Nat) (v : Voice) : SameTone v (followEnv e v) := by
  unfold followEnv
  split <;> exact ⟨rfl, rfl, rfl⟩

theorem envVolumeUpdate_sameTone (p : Params) (s : Synth) (k : Fin 3) :
    SameTone (s.voice k) ((s.envVolumeUpdate p).voice k) := by
  rw [envVolumeUpdate, voice_mapVoices]
  exact followEnv_sameTone ..

theorem envStep_sameTone (p : Params) (s : Synth) (k : Fin 3) : SameTone (s.voice k) ((s.envStep p).voice k) := by
  simp only [envStep]
  split
  · exact .refl _
  · split
    · have h := envVolumeUpdate_sameTone p { s with cntE := s.cntE - 1 + s.perE }.envDescend k
      rwa [envDescend_voice] at h
    · exact .refl _

theorem accumulate_sameTone (s : Synth) (k : Fin 3) : SameTone (s.voice k) (s.accumulate.voice k) := by
  rw [accumulate, voice_mapVoices]
  exact ⟨rfl, rfl, rfl⟩

/-- A tick does the tone step to each voice's period, counter and output, and nothing else to them (43_synth_generators.md R280). -/
theorem tick_sameTone (p : Params) (s : Synth) (k : Fin 3) : SameTone (toneStep (s.voice k)) ((s.tick p).voice k) := by
  have h := envStep_sameTone p (s.mapVoices fun _ => toneStep).noiseStep k
  rw [noiseStep_voice, voice_mapVoices] at h
  exact h.trans (accumulate_sameTone _ k)

/-- Ticks iterate the tone step on each voice's tone. -/
theorem ticks_sameTone (p : Params) (n : Nat) {s : Synth} {k : Fin 3} {v : Voice} (h : SameTone v (s.voice k)) :
    SameTone (toneStep^[n] v) ((s.ticks p n).voice k) := by
  induction n generalizing s v with
  | zero => exact h
  | succ n ih => exact ih ((toneStep_sameTone h).trans (tick_sameTone p s k))

end Synth

/-- `TICK` ticks the Synthesizer and changes nothing else (43_synth_generators.md R280). -/
theorem exec_tick (s : State) : exec .tick s = .next (s.mapSyn (Synth.tick s.cfg)) := rfl

/-- Requests for ticks alone tick the Synthesizer as often (43_synth_generators.md R280). -/
theorem execAll_times_tick (n : Nat) (s : State) : execAll (times n .tick) s = .next (s.mapSyn (Synth.ticks s.cfg n)) := by
  induction n generalizing s with
  | zero => rfl
  | succ n ih => exact ih (s.mapSyn (Synth.tick s.cfg))

end Sys2Proof.Machine

namespace Sys2Proof

open Sys2Proof.Machine Sys2Proof.Machine.Synth

/-- Settles O49: a tick is the tone step on a voice's tone, and a full period of tone steps flips the output, by induction on the
number of periods. -/
theorem toneVoicesFlipOncePerPeriod : Obligations.ToneVoicesFlipOncePerPeriod := by
  constructor
  · intro s k
    obtain ⟨-, hcnt, hout⟩ := tick_sameTone s.cfg s.syn k
    refine ⟨_, exec_tick s, fun hu => ?_, fun hr => ?_, fun hper h1 => ?_⟩
    · rw [toneStep_of_underflow hu] at hcnt hout
      exact ⟨hcnt, hout⟩
    · rw [toneStep_of_running hr] at hcnt hout
      exact ⟨hcnt, hout⟩
    · exact (toneStep_cnt_pos hper h1).trans_eq hcnt.symm
  · intro s k m hper hfull
    obtain ⟨-, hcnt, hout⟩ := ticks_sameTone s.cfg (m * (s.syn.voice k).per) (.refl (s.syn.voice k))
    rw [iterate_toneStep_mul_per m hper hfull] at hcnt hout
    have hflip : ((s.syn.ticks s.cfg (m * (s.syn.voice k).per)).voice k).out = (s.syn.voice k).out ↔ m % 2 = 0 := by
      by_cases hm : m % 2 = 0 <;> simp [hout, hm]
    exact ⟨_, execAll_times_tick _ s, hcnt, hflip⟩

end Sys2Proof
end

section
/-! The cycle and the Synthesizer: no part of a cycle reads it, and each part leaves it as it found it. -/

namespace Sys2Proof.Machine

open Sys2Proof.Claim

/-- A change of the next state passes a step that commutes with it. -/
theorem andThen_mapNext {f : State → State} {g : State → Res} (hg : ∀ t, g (f t) = mapNext f (g t)) (r : Res) :
    andThen (mapNext f r) g = mapNext f (andThen r g) := by
  cases r with
  | next t => exact hg t
  | fault _ => rfl
  | refused _ => rfl

/-- With or without a record to emit, the beam's advance commutes with any change of the Synthesizer (44_beam_engine.md R320). -/
theorem beamAdvance_mapSyn (f : Synth → Synth) (s : State) : (s.mapSyn f).beamAdvance = s.beamAdvance.mapSyn f := by
  simp only [State.beamAdvance, State.mapSyn_b, State.mapSyn_cfg, State.mapSyn_c]
  cases (s.b.advance s.cfg s.c).2 with
  | none => rfl
  | some _ => rfl

/-- The position guard does not see the Synthesizer either (44_beam_engine.md R335). -/
theorem beamStep_mapSyn (f : Synth → Synth) (s : State) : beamStep (s.mapSyn f) = mapNext (State.mapSyn f) (beamStep s) := by
  simp only [beamStep, beamAdvance_mapSyn, State.mapSyn_b, State.mapSyn_cfg]
  cases s.beamAdvance.b.beyondLimit s.cfg with
  | false => rfl
  | true => rfl

/-- A cycle commutes with any change of the Synthesizer (45_scheduler.md R360): both phases change the Controller only. -/
theorem cycle_mapSyn (f : Synth → Synth) (s : State) : cycle (s.mapSyn f) = mapNext (State.mapSyn f) (cycle s) :=
  calc cycle (s.mapSyn f)
    _ = andThen (beamStep ((s.mapC Controller.phaseA).mapSyn f)) fun t => .next (t.mapC Controller.phaseB) := rfl
    _ = mapNext (State.mapSyn f) (cycle s) := by
      rw [beamStep_mapSyn]
      exact andThen_mapNext (fun _ => rfl) _

/-- `CYC` is the three requests of its parts, one after another (45_scheduler.md R360). -/
theorem exec_cyc_eq_execAll (s : State) : exec .cyc s = execAll [.pha, .beam, .phb] s := rfl

end Sys2Proof.Machine

namespace Sys2Proof

open Sys2Proof.Machine

/-- Settles O37: `CYC` runs its three parts in order, and replacing the Synthesizer is a change that the cycle commutes with. -/
theorem cycleIsPhaseABeamPhaseB : Obligations.CycleIsPhaseABeamPhaseB :=
  ⟨rfl, exec_cyc_eq_execAll, fun s y => cycle_mapSyn (fun _ => y) s⟩

end Sys2Proof
end

section
/-! Request words: the fields of a word in arithmetic, what the decoder accepts, and that encoder and decoder invert each
other (30_encoding.md section 2). -/

namespace Sys2Proof

/-! ### The fields of a word (30_encoding.md R101) -/

theorem word_cls_toNat (w : Word) : (w.extractLsb' 13 3).toNat = w.toNat / 8192 := by
  rw [BitVec.extractLsb'_toNat, Nat.shiftRight_eq_div_pow]
  exact Nat.mod_eq_of_lt (by omega)

theorem word_bit12 (w : Word) : w.getLsbD 12 = decide (w.toNat / 4096 % 2 = 1) := by
  rw [BitVec.getLsbD, Nat.testBit_eq_decide_div_mod_eq]

theorem word_offset_toNat (w : Word) : (w.extractLsb' 8 4).toNat = w.toNat / 256 % 16 := by
  rw [BitVec.extractLsb'_toNat, Nat.shiftRight_eq_div_pow]

theorem word_sel_toNat (w : Word) : (w.extractLsb' 8 5).toNat = w.toNat / 256 % 32 := by
  rw [BitVec.extractLsb'_toNat, Nat.shiftRight_eq_div_pow]

theorem word_data_toNat (w : Word) : (w.extractLsb' 0 8).toNat = w.toNat % 256 := by
  rw [BitVec.extractLsb'_toNat, Nat.shiftRight_zero]

theorem word_data_eq_zero (w : Word) : w.extractLsb' 0 8 = 0#8 ↔ w.toNat % 256 = 0 := by
  rw [← word_data_toNat, ← BitVec.toNat_inj, BitVec.toNat_ofNat, Nat.zero_mod]

/-! ### The bytes of an encoded request -/

/-- An encoded word is its high byte above its low byte. -/
theorem encode_toNat (i : Instr) : (encode i).toNat = 256 * i.highByte.toNat + i.lowByte.toNat := by
  have hlow := congrArg BitVec.toNat (join_low i.highByte i.lowByte)
  have hhigh := congrArg BitVec.toNat (join_high i.highByte i.lowByte)
  rw [BitVec.extractLsb'_toNat, Nat.shiftRight_eq_div_pow] at hlow hhigh
  have := (encode i).isLt
  unfold encode at this ⊢
  omega

theorem ctrlReadInstr_bytes (k : BitVec 4) :
    (ctrlReadInstr k).highByte.toNat = k.toNat ∧ (ctrlReadInstr k).lowByte = 0#8 := by
  revert k
  decide

theorem ctrlWriteInstr_bytes (k : BitVec 4) (d : Byte) :
    (ctrlWriteInstr k d).highByte.toNat = 32 + k.toNat ∧ (ctrlWriteInstr k d).lowByte = d := by
  apply Machine.Synth.forall_register (k := k) <;> exact ⟨rfl, rfl⟩

theorem srd_bytes (r : BitVec 4) : (Instr.srd r).highByte.toNat = 64 + r.toNat ∧ (Instr.srd r).lowByte = 0#8 := by
  revert r
  decide

theorem synWriteInstr_bytes (r : BitVec 4) (d : Byte) :
    (synWriteInstr r d).highByte.toNat = 96 + r.toNat ∧ (synWriteInstr r d).lowByte = d := by
  apply Machine.Synth.forall_register (k := r) <;> exact ⟨rfl, rfl⟩

/-! ### What each class of words decodes to -/

/-- A window request is accepted if `w[12]` is clear and, for a read, the data byte is 0 (R103 to R106, R109). -/
theorem decodeWindow_eq_ok {read : Bool} {w : Word} {f : BitVec 4 → Byte → Instr} {i : Instr} :
    decodeWindow read w f = .ok i ↔
      w.toNat / 256 % 32 < 16 ∧ (read = true → w.toNat % 256 = 0) ∧ f (w.extractLsb' 8 4) (w.extractLsb' 0 8) = i := by
  have hbit : w.toNat / 4096 % 2 = 1 ↔ ¬ w.toNat / 256 % 32 < 16 := by omega
  simp only [decodeWindow, word_bit12, hbit]
  by_cases hw : w.toNat / 256 % 32 < 16
  · by_cases hd : w.toNat % 256 = 0
    · simp [hw, hd, (word_data_eq_zero w).2 hd]
    · cases read <;> simp [hw, hd, mt (word_data_eq_zero w).1 hd]
  · simp [hw]

/-- A step is accepted if its number is in use and, except for `IEND`, its data byte is 0 (R107, R109). -/
theorem exists_decodeStep_eq_ok (op : BitVec 5) (d : Byte) :
    (∃ i, decodeStep op d = .ok i) ↔ op.toNat < 9 ∧ (op.toNat = 5 ∨ d = 0#8) := by
  unfold decodeStep plainStep
  by_cases hd : d = 0#8 <;> simp only [hd, if_true, if_false] <;> split <;> simp_all
  omega

theorem decodeStep_bytes {op : BitVec 5} {d : Byte} {i : Instr} (h : decodeStep op d = .ok i) :
    i.highByte.toNat = 128 + op.toNat ∧ i.lowByte = d := by
  unfold decodeStep plainStep at h
  split at h
  case h_6 hop =>
    cases h
    rw [hop]
    exact ⟨rfl, rfl⟩
  case h_10 => cases h
  all_goals
    next hop =>
    split at h
    · next hd =>
      cases h
      rw [hop, hd]
      exact ⟨rfl, rfl⟩
    · cases h

/-- A host request is accepted if its number is in use (R108, R109). -/
theorem exists_decodeHost_eq_ok (op : BitVec 5) (v : Byte) : (∃ i, decodeHost op v = .ok i) ↔ op.toNat < 5 := by
  unfold decodeHost
  split <;> simp_all
  omega

theorem decodeHost_bytes {op : BitVec 5} {v : Byte} {i : Instr} (h : decodeHost op v = .ok i) :
    i.highByte.toNat = 160 + op.toNat ∧ i.lowByte = v := by
  unfold decodeHost at h
  split at h
  case h_6 => cases h
  all_goals
    next hop =>
    cases h
    rw [hop]
    exact ⟨rfl, rfl⟩

/-! ### Decoder and encoder -/

/-- The two bytes of a decoded request are those of its word. -/
theorem encode_toNat_of_decode {w : Word} {i : Instr} (h : decode w = .ok i) :
    256 * i.highByte.toNat + i.lowByte.toNat = w.toNat := by
  have hw := w.isLt
  have hd : (w.extractLsb' 0 8).toNat = w.toNat % 256 := word_data_toNat w
  unfold decode at h
  split at h
  case h_1 hc =>
    rw [word_cls_toNat] at hc
    obtain ⟨hsel, hz, rfl⟩ := decodeWindow_eq_ok.1 h
    obtain ⟨hb, hl⟩ := ctrlReadInstr_bytes (w.extractLsb' 8 4)
    have := hz rfl
    rw [hb, hl, word_offset_toNat, BitVec.toNat_ofNat]
    omega
  case h_2 hc =>
    rw [word_cls_toNat] at hc
    obtain ⟨hsel, -, rfl⟩ := decodeWindow_eq_ok.1 h
    obtain ⟨hb, hl⟩ := ctrlWriteInstr_bytes (w.extractLsb' 8 4) (w.extractLsb' 0 8)
    rw [hb, hl, word_offset_toNat, hd]
    omega
  case h_3 hc =>
    rw [word_cls_toNat] at hc
    obtain ⟨hsel, hz, rfl⟩ := decodeWindow_eq_ok.1 h
    obtain ⟨hb, hl⟩ := srd_bytes (w.extractLsb' 8 4)
    have := hz rfl
    rw [hb, hl, word_offset_toNat, BitVec.toNat_ofNat]
    omega
  case h_4 hc =>
    rw [word_cls_toNat] at hc
    obtain ⟨hsel, -, rfl⟩ := decodeWindow_eq_ok.1 h
    obtain ⟨hb, hl⟩ := synWriteInstr_bytes (w.extractLsb' 8 4) (w.extractLsb' 0 8)
    rw [hb, hl, word_offset_toNat, hd]
    omega
  case h_5 hc =>
    rw [word_cls_toNat] at hc
    obtain ⟨hb, hl⟩ := decodeStep_bytes h
    rw [hb, hl, word_sel_toNat, hd]
    omega
  case h_6 hc =>
    rw [word_cls_toNat] at hc
    obtain ⟨hb, hl⟩ := decodeHost_bytes h
    rw [hb, hl, word_sel_toNat, hd]
    omega
  case h_7 => cases h

/-- R109's clauses negated, in arithmetic. -/
theorem wellFormed_iff (w : Word) : w.wellFormed = true ↔
    w.toNat / 8192 < 6 ∧ (w.toNat / 8192 < 4 → w.toNat / 256 % 32 < 16)
    ∧ (w.toNat / 8192 = 0 ∨ w.toNat / 8192 = 2 → w.toNat % 256 = 0)
    ∧ (w.toNat / 8192 = 4 → w.toNat / 256 % 32 < 9 ∧ (w.toNat / 256 % 32 = 5 ∨ w.toNat % 256 = 0))
    ∧ (w.toNat / 8192 = 5 → w.toNat / 256 % 32 < 5) := by
  simp only [Word.wellFormed, Word.classUsed, Word.windowBitClear, Word.readDataClear, Word.stepUsed,
    Word.stepDataClear, Word.hostUsed, Word.cls, Word.sel, Word.data, word_bit12]
  simp [← BitVec.toNat_inj, word_cls_toNat, word_sel_toNat, word_data_toNat, -BitVec.extractLsb'_toNat]
  omega

/-- The decoder accepts exactly the well-formed words: class by class. -/
theorem exists_decode_eq_ok (w : Word) : (∃ i, decode w = .ok i) ↔ w.wellFormed = true := by
  rw [wellFormed_iff]
  unfold decode
  split
  case h_7 h0 h1 h2 h3 h4 h5 =>
    simp only [word_cls_toNat, imp_false] at h0 h1 h2 h3 h4 h5
    exact iff_of_false (by simp) (by omega)
  all_goals
    next hc =>
    rw [word_cls_toNat] at hc
    simp [hc, decodeWindow_eq_ok, exists_decodeStep_eq_ok, exists_decodeHost_eq_ok, word_sel_toNat, word_data_eq_zero,
      -BitVec.extractLsb'_toNat]

/-- A word is accepted or refused. -/
theorem exists_decode_eq_error (w : Word) : (∃ why, decode w = .error why) ↔ ¬ ∃ i, decode w = .ok i := by
  cases decode w <;> simp

/-- The offset field of an encoded word is the low half of the high byte. -/
theorem encode_offset (i : Instr) : (encode i).extractLsb' 8 4 = i.highByte.extractLsb' 0 4 := by
  ext j hj
  interval_cases j <;> simp [encode]

theorem srd_offset (r : BitVec 4) : (Instr.srd r).highByte.extractLsb' 0 4 = r := by
  revert r
  decide

/-- A property of the four axes. -/
theorem forall_axis {P : BitVec 2 → Prop} (h0 : P 0#2) (h1 : P 1#2) (h2 : P 2#2) (h3 : P 3#2) (k : BitVec 2) : P k := by
  change P (BitVec.ofFin k.toFin)
  generalize k.toFin = f
  fin_cases f
  exacts [h0, h1, h2, h3]

theorem joy_cls (k : BitVec 2) (v : Byte) : (Instr.joy k v).highByte.extractLsb' 5 3 = 5#3 := by
  simp only [Instr.highByte]
  revert k
  decide

theorem joy_sel (k : BitVec 2) (v : Byte) : (Instr.joy k v).highByte.extractLsb' 0 5 = k.setWidth 5 := by
  simp only [Instr.highByte]
  revert k
  decide

/-- The decoder reads a request off the bytes its encoding has. -/
theorem decode_encode (i : Instr) : decode (encode i) = .ok i := by
  have hcls : (encode i).extractLsb' 13 3 = i.highByte.extractLsb' 5 3 := encode_cls i
  have hsel : (encode i).extractLsb' 8 5 = i.highByte.extractLsb' 0 5 := encode_sel i
  have hdata : (encode i).extractLsb' 0 8 = i.lowByte := encode_data i
  simp only [decode, decodeWindow, hcls, hsel, hdata, encode_bit12, encode_offset]
  cases i with
  | srd r =>
    rw [srd_offset]
    apply Machine.Synth.forall_register (k := r) <;> rfl
  | joy k v =>
    rw [joy_cls, joy_sel]
    apply forall_axis (k := k) <;> rfl
  | _ =>
    simp [Instr.highByte, Instr.lowByte, ctrlReadInstr, ctrlWriteInstr, synWriteInstr, decodeStep, decodeHost, plainStep]

/-! ### The obligations on words -/

/-- Settles O3: every field of an encoded word is a field of its two bytes, and the decoder reads those back. -/
theorem decodeOfEncodeIsTheRequest : Obligations.DecodeOfEncodeIsTheRequest := decode_encode

/-- Settles O4: the bytes of a decoded request are those of its word. -/
theorem encodeOfDecodeIsTheWord : Obligations.EncodeOfDecodeIsTheWord := fun _ i h =>
  BitVec.eq_of_toNat_eq ((encode_toNat i).trans (encode_toNat_of_decode h))

/-- Settles O2: the words accepted are the well-formed ones, which are those no clause of R109 names. -/
theorem decoderRefusesExactlyTheReservedWords : Obligations.DecoderRefusesExactlyTheReservedWords := by
  intro w
  dsimp only
  refine ⟨?_, (exists_decode_eq_ok w).symm⟩
  rw [exists_decode_eq_error, exists_decode_eq_ok, wellFormed_iff]
  omega

/-- Settles O1: nine of the words are encodings, the ten others are evaluated. -/
theorem specWordsDecodeToTheirRequests : Obligations.SpecWordsDecodeToTheirRequests := by
  refine ⟨decode_encode .crdD, decode_encode (.cwrE 0x7F#8), decode_encode (.srd 13#4), decode_encode (.swrD 0x0E#8),
    decode_encode .cyc, decode_encode (.iend 5#8), decode_encode (.iend 0#8), decode_encode (.joy 3#2 200#8),
    decode_encode (.psgin 0xFE#8), ?_⟩
  decide

/-! ### Serving the request stream -/

/-- Settles O5: `step` decodes the issued word, and the encoding of a request decodes to it. -/
theorem stepServesTheDecodedRequest : Obligations.StepServesTheDecodedRequest := by
  have hstep (s : Machine.State) (w : Word) (i : Instr) (rest : List Machine.Issue) (hp : s.pending = .one w :: rest)
      (hw : decode w = .ok i) : Machine.step s = Machine.exec i { s with pending := rest } := by
    simp only [Machine.step, hp, hw]
  exact ⟨hstep, fun s i => hstep _ _ i s.pending rfl (decode_encode i)⟩

/-- Settles O6: the three cases of `step` that serve nothing. -/
theorem stepRefusesWhatTheSpecRefuses : Obligations.StepRefusesWhatTheSpecRefuses := by
  refine ⟨fun s w why rest hp hw => ?_, fun s w₁ w₂ rest hp => ?_, fun s hp => ?_⟩
  · simp only [Machine.step, hp, hw]
  · simp only [Machine.step, hp]
  · simp only [Machine.step, hp]

end Sys2Proof
end

section
/-! Every request keeps the invariant and the configuration (10_state.md section 7), and so does a step. -/

namespace Sys2Proof.Machine

theorem synthWrite_inv (k : BitVec 4) (d : Byte) {s : State} (h : s.Inv) : (s.mapSyn (Synth.write s.cfg k d)).Inv := by
  obtain ⟨-, hs, hd, -, -, hp⟩ := id h
  exact mapSyn_inv h (Synth.write_inv hp k d hs) (Synth.write_derived k d hd)

theorem reset_inv {s : State} (h : s.Inv) :
    State.Inv { s with
      c := Controller.atReset, syn := Synth.resetProcedure s.cfg, b := Beam.atReset s.cfg, g := Glue.atReset s.cfg } := by
  obtain ⟨-, -, -, -, -, hp⟩ := h
  obtain ⟨hs, hd⟩ := resetProcedure_inv hp
  exact ⟨Controller.atReset_inv, hs, hd, Beam.atReset_inv hp, Glue.atReset_inv s.cfg, hp⟩

/-- The protocol's cases and the beam's sample update leave the configuration. -/
theorem hookWritePA_cfg (d : Byte) (s : State) : (s.hookWritePA d).cfg = s.cfg := (psgProtocol_frame s).1

theorem hookWritePB_cfg (s : State) : s.hookWritePB.cfg = s.cfg := (psgProtocol_frame s).1

theorem cycle_cfg {s t : State} (ht : cycle s = .next t) : t.cfg = s.cfg := by
  obtain ⟨-, rfl⟩ := cycle_eq_next.1 ht
  simp

theorem cycles_cfg {n : Nat} {s t : State} (ht : cycles n s = .next t) : t.cfg = s.cfg :=
  cycles_induction (P := fun u => u.cfg = s.cfg) (fun _ _ hu h => (cycle_cfg h).trans hu) rfl ht

theorem frameAccount_cfg (n : Byte) (s : State) : (s.frameAccount n).cfg = s.cfg := by
  rcases frameAccount_cases n s with ⟨-, e⟩ | ⟨-, e⟩ <;> rw [e]

/-- `IEND n` is n cycles, then the frame accounting (45_scheduler.md R362). -/
theorem exec_iend_eq_next {n : Byte} {s t : State} :
    exec (.iend n) s = .next t ↔ ∃ u, cycles n.toNat s = .next u ∧ u.frameAccount n = t := by
  change andThen (cycles n.toNat s) (fun u => .next (u.frameAccount n)) = .next t ↔ _
  simp only [andThen_eq_next, Host.Outcome.next.injEq]

/-- Every request keeps the invariant. -/
theorem exec_inv {i : Instr} {s t : State} (h : s.Inv) (ht : exec i s = .next t) : t.Inv := by
  obtain ⟨hc, hs, hd, hb, hg, hp⟩ := id h
  cases i with
  | beam =>
    obtain ⟨hl, rfl⟩ := beamStep_eq_next.1 ht
    exact beamAdvance_inv h hl
  | cyc => exact cycle_inv h ht
  | iend n =>
    obtain ⟨u, hu, rfl⟩ := exec_iend_eq_next.1 ht
    exact frameAccount_inv n (cycles_inv h hu)
  | reset =>
    obtain rfl := Host.Outcome.next.inj ht
    exact reset_inv h
  | crd1 =>
    obtain rfl := Host.Outcome.next.inj ht
    exact mapC_inv h (Controller.line1Access_inv _ hc)
  | crd4 =>
    obtain rfl := Host.Outcome.next.inj ht
    exact mapC_inv h (Controller.t1Stop_inv hc)
  | crd8 =>
    obtain rfl := Host.Outcome.next.inj ht
    exact mapC_inv h (Controller.t2Stop_inv hc)
  | crdA =>
    obtain rfl := Host.Outcome.next.inj ht
    exact mapC_inv h (Controller.srAccess_inv hc)
  | cwr0 d =>
    obtain rfl := Host.Outcome.next.inj ht
    have hw : State.Inv (s.mapC fun c => { c with orb := d }) := h
    exact mapC_inv (hookWritePB_inv hw) (Controller.line2Access_inv _ (hookWritePB_inv hw).1)
  | cwr1 d =>
    obtain rfl := Host.Outcome.next.inj ht
    have hw : State.Inv (s.mapC (Controller.line1Access s.cfg)) := mapC_inv h (Controller.line1Access_inv _ hc)
    exact hookWritePA_inv d hw
  | cwrF d =>
    obtain rfl := Host.Outcome.next.inj ht
    have hw : State.Inv (s.mapC fun c => { c with ora := d }) := h
    exact hookWritePA_inv d hw
  | cwr5 d =>
    obtain rfl := Host.Outcome.next.inj ht
    exact mapC_inv h (Controller.t1Start_inv (c := { s.c with t1lh := d }) hc)
  | cwr7 d =>
    obtain rfl := Host.Outcome.next.inj ht
    exact mapC_inv h (Controller.writeT1LatchHigh_inv s.cfg d hc)
  | cwr9 d =>
    obtain rfl := Host.Outcome.next.inj ht
    exact mapC_inv h (Controller.t2Start_inv d hc)
  | cwrA d =>
    obtain rfl := Host.Outcome.next.inj ht
    exact mapC_inv h (Controller.srAccess_inv (c := { s.c with sr := d }) hc)
  | cwrD d =>
    obtain rfl := Host.Outcome.next.inj ht
    obtain ⟨hn, -, hu⟩ := hc
    exact mapC_inv h (clearFlags_inv _ hn hu)
  | cwrE d =>
    obtain rfl := Host.Outcome.next.inj ht
    exact mapC_inv h (writeEnables_inv d hc)
  | pha =>
    obtain rfl := Host.Outcome.next.inj ht
    exact mapC_inv h (Controller.phaseA_inv hc)
  | phb =>
    obtain rfl := Host.Outcome.next.inj ht
    exact mapC_inv h (Controller.phaseB_inv hc)
  | swr0 d | swr1 d | swr2 d | swr3 d | swr4 d | swr5 d | swr6 d | swr7 d | swr8 d | swr9 d | swrA d | swrB d | swrC d
  | swrD d | swrE d | swrF d =>
    obtain rfl := Host.Outcome.next.inj ht
    exact synthWrite_inv _ d h
  | tick =>
    obtain rfl := Host.Outcome.next.inj ht
    exact mapSyn_inv h (Synth.tick_inv hp hs) (Synth.tick_derived hd)
  | sample =>
    obtain rfl := Host.Outcome.next.inj ht
    exact mapSyn_inv h (Synth.sampleTicks_inv hp hs) (Synth.sampleTicks_derived hd)
  | joy k v =>
    obtain rfl := Host.Outcome.next.inj ht
    exact mapB_inv h (Beam.setAxis_inv k v hb)
  | psgin v =>
    obtain rfl := Host.Outcome.next.inj ht
    exact mapSyn_inv h (Synth.setReg_inv 14#4 v hs) (input_derived v hd)
  | _ =>
    obtain rfl := Host.Outcome.next.inj ht
    exact h

/-- No request changes the configuration. -/
theorem exec_cfg {i : Instr} {s t : State} (ht : exec i s = .next t) : t.cfg = s.cfg := by
  cases i with
  | beam =>
    obtain ⟨-, rfl⟩ := beamStep_eq_next.1 ht
    exact beamAdvance_cfg s
  | cyc => exact cycle_cfg ht
  | iend n =>
    obtain ⟨u, hu, rfl⟩ := exec_iend_eq_next.1 ht
    exact (frameAccount_cfg n u).trans (cycles_cfg hu)
  | cwr0 d =>
    obtain rfl := Host.Outcome.next.inj ht
    exact hookWritePB_cfg _
  | cwr1 d | cwrF d =>
    obtain rfl := Host.Outcome.next.inj ht
    exact hookWritePA_cfg d _
  | _ =>
    obtain rfl := Host.Outcome.next.inj ht
    rfl

/-- A step that answers a next state does nothing, or serves one request. -/
theorem step_eq_next {s t : State} (ht : step s = .next t) :
    t = s ∨ ∃ i rest, exec i { s with pending := rest } = .next t := by
  unfold step at ht
  split at ht
  · exact .inl (Host.Outcome.next.inj ht).symm
  · cases ht
  · split at ht
    · cases ht
    · exact .inr ⟨_, _, ht⟩

end Sys2Proof.Machine

namespace Sys2Proof

open Sys2Proof.Machine

/-- Settles O59: a step that does something serves one request, and every request keeps the invariant and the
configuration. -/
theorem everyStepKeepsTheInvariant : Obligations.EveryStepKeepsTheInvariant := by
  intro s t h ht
  rcases step_eq_next ht with rfl | ⟨i, rest, hi⟩
  · exact ⟨h, rfl⟩
  · have hr : State.Inv { s with pending := rest } := h
    have hcfg := exec_cfg hi
    exact ⟨exec_inv hr hi, hcfg⟩

/-- Settles O60: part by part from the reset values' own laws. -/
theorem resetStateMeetsTheInvariant : Obligations.ResetStateMeetsTheInvariant := by
  obtain ⟨hs, hd⟩ := resetProcedure_inv thisSpec_valid
  rw [resetProcedure_eq (p := Params.thisSpec) rfl] at hs hd
  exact ⟨⟨Controller.atReset_inv, hs, hd, Beam.atReset_inv thisSpec_valid, Glue.atReset_inv _, thisSpec_valid⟩, rfl⟩

end Sys2Proof
end

section
/-! The accesses of the Controller window other than the port writes: operands in arithmetic, and each access as an update of
the registers it names (40_controller_bus.md). -/

namespace Sys2Proof.Machine

open Sys2Proof.Claim

/-! ### Fields in arithmetic -/

/-- A bit of a word, in arithmetic. -/
theorem getLsbD_eq_decide {w : Nat} (x : BitVec w) (i : Nat) : x.getLsbD i = decide (x.toNat / 2 ^ i % 2 = 1) :=
  Nat.testBit_eq_decide_div_mod_eq

/-- A field of a word, in arithmetic. -/
theorem extractLsb'_toNat_div {w : Nat} (x : BitVec w) (i n : Nat) :
    (x.extractLsb' i n).toNat = x.toNat / 2 ^ i % 2 ^ n := by
  rw [BitVec.extractLsb'_toNat, Nat.shiftRight_eq_div_pow]

theorem line1Field_toNat (pcr : Byte) : (line1Field pcr).toNat = pcr.toNat / 2 % 8 := extractLsb'_toNat_div pcr 1 3

theorem line2Field_toNat (pcr : Byte) : (line2Field pcr).toNat = pcr.toNat / 32 :=
  (extractLsb'_toNat_div pcr 5 3).trans (Nat.mod_eq_of_lt (by omega))

theorem psgControl_toNat (orb : Byte) : (psgControl orb).toNat = orb.toNat / 8 % 4 := extractLsb'_toNat_div orb 3 2

/-- The pulse mode is 0b101 (10_state.md R28). -/
theorem lineMode_eq_pulse (f : BitVec 3) : lineMode f = .pulse ↔ f.toNat = 5 := by
  revert f
  decide

theorem pcrLevel_eq (f : BitVec 3) : pcrLevel f = decide (f.toNat ≠ 6) := by
  revert f
  decide

/-- A field is in `HS_LOW_MODES` as a number exactly if it is as a word. -/
theorem drivesLow_iff (p : Params) (f : BitVec 3) : drivesLow p f.toNat ↔ hsLow p f = true := by
  rw [drivesLow, BitVec.ofNat_toNat, BitVec.setWidth_eq, hsLow, List.contains_iff_mem]

/-- A timer value from its two bytes, in arithmetic (30_encoding.md R110). -/
theorem timerValue_toNat (high low : Byte) : (timerValue high low).toNat = 256 * high.toNat + low.toNat := by
  have hlow := congrArg BitVec.toNat (join_low high low)
  have hhigh := congrArg BitVec.toNat (join_high high low)
  rw [extractLsb'_toNat_div] at hlow hhigh
  have := (timerValue high low).isLt
  unfold timerValue at this ⊢
  omega

theorem pair_toNat (high low : Byte) : (pair high low).toNat = 256 * high.toNat + low.toNat := by
  rw [pair, BitVec.toNat_ofNat]
  omega

theorem timerValue_eq_pair (high low : Byte) : timerValue high low = pair high low :=
  BitVec.eq_of_toNat_eq ((timerValue_toNat high low).trans (pair_toNat high low).symm)

/-! ### The port reads -/

theorem getLsbD_not_of_lt (x : Byte) {i : Nat} (h : i < 8) : (~~~x).getLsbD i = !x.getLsbD i := by
  rw [BitVec.getLsbD_not, decide_eq_true h, Bool.true_and]

theorem getLsbD_topBit (b : Bool) {i : Nat} (h : i < 8) :
    (if b then 0x80#8 else 0#8).getLsbD i = (b && decide (i = 7)) := by
  cases b <;> interval_cases i <;> rfl

/-- Bit 7 of a port-B read is the toggle's or the register's (40_controller_bus.md R145). -/
theorem portB_bit7 (p : Params) (hook : Byte) (c : Controller) :
    (c.portB p hook).getLsbD 7 = if c.acr.getLsbD 7 then c.t1pb7 else c.orb.getLsbD 7 := by
  have hm : (p.pbInputMask &&& 0x7F#8).getLsbD 7 = false := by
    rw [BitVec.getLsbD_and]
    exact Bool.and_false _
  have h80 : (0x80#8).getLsbD 7 = true := rfl
  have h8 : 7 < 8 := by decide
  unfold Controller.portB acrPb7En
  split
  · simp only [BitVec.getLsbD_or, BitVec.getLsbD_and, getLsbD_not_of_lt _ h8, getLsbD_topBit _ h8, hm, h80,
      Bool.and_false, Bool.or_false, Bool.not_true, Bool.false_or, Bool.and_true, decide_true]
  · simp only [BitVec.getLsbD_or, BitVec.getLsbD_and, getLsbD_not_of_lt _ h8, hm, Bool.and_false, Bool.or_false,
      Bool.not_false, Bool.and_true]

/-- Each other bit of a port-B read is the hook's where `PB_INPUT_MASK` is set, else the register's
(40_controller_bus.md R145). -/
theorem portB_bit (p : Params) (hook : Byte) (c : Controller) {i : Nat} (h : i < 7) :
    (c.portB p hook).getLsbD i = if p.pbInputMask.getLsbD i then hook.getLsbD i else c.orb.getLsbD i := by
  have h8 : i < 8 := by omega
  have hm : (p.pbInputMask &&& 0x7F#8).getLsbD i = p.pbInputMask.getLsbD i := flagMask_flag _ h
  have h80 : (0x80#8).getLsbD i = false := by interval_cases i <;> rfl
  have hmix (m o k : Bool) : (o && !m || k && m) = if m then k else o := by
    cases m <;> simp
  unfold Controller.portB
  split
  · simp only [BitVec.getLsbD_or, BitVec.getLsbD_and, getLsbD_not_of_lt _ h8, getLsbD_topBit _ h8, hm, h80, h.ne,
      decide_false, Bool.and_false, Bool.false_or, Bool.or_false, hmix]
  · simp only [BitVec.getLsbD_or, BitVec.getLsbD_and, getLsbD_not_of_lt _ h8, hm, hmix]

/-- The hook's byte has the compare bit at bit 5 and nothing else (45_scheduler.md R374). -/
theorem hookReadPB_bit (s : State) {i : Nat} (h : i < 7) : s.hookReadPB.getLsbD i = (decide (i = 5) && s.b.cmp) := by
  unfold State.hookReadPB
  cases s.b.cmp <;> interval_cases i <;> rfl

theorem portA_eq_portAByte (s : State) : s.portA = portAByte s := by
  have h : psgControl s.c.orb = 1#2 ↔ s.c.orb.toNat / 8 % 4 = 1 := by
    rw [← psgControl_toNat, ← BitVec.toNat_inj]
    rfl
  simp only [State.portA, State.hookReadPA, portAByte, h]
  split <;> rfl

/-! ### The line outputs -/

/-- A port access at 0x1 drives line 1 low in its `HS_LOW_MODES` modes (40_controller_bus.md R141). -/
theorem line1Access_eq_drivesLow (p : Params) (c : Controller) :
    c.line1Access p = { c with ca2 := if drivesLow p (line1 c) then false else c.ca2 } := by
  rw [Controller.line1Access_eq, line1, ← line1Field_toNat]
  simp only [drivesLow_iff]

/-- A write at 0x0 drives line 2 low in its `HS_LOW_MODES` modes (40_controller_bus.md R161). -/
theorem line2Access_eq_drivesLow (p : Params) (c : Controller) :
    c.line2Access p = { c with cb2h := if drivesLow p (line2 c) then false else c.cb2h } := by
  rw [Controller.line2Access_eq, line2, ← line2Field_toNat]
  simp only [drivesLow_iff]

/-- Phase B raises the lines in pulse mode (41_controller_cycle.md R214). -/
theorem phaseB_eq (c : Controller) :
    c.phaseB = { c with ca2 := c.ca2 || decide (line1 c = 5), cb2h := c.cb2h || decide (line2 c = 5) } := by
  simp only [Controller.phaseB, lineMode_eq_pulse, line1Field_toNat, line2Field_toNat, line1, line2]
  congr 1
  · split <;> simp_all
  · split <;> simp_all

/-- A second Phase B finds both lines as the first left them. -/
theorem phaseB_phaseB (c : Controller) : c.phaseB.phaseB = c.phaseB := by
  simp only [Controller.phaseB]
  congr 1 <;> split <;> rfl

/-! ### Timer and shift-register accesses -/

/-- Starting timer 1 takes its flag down (40_controller_bus.md R142). -/
theorem t1Start_flagFell (c : Controller) (d : Byte) :
    flagFell 6 c (Controller.t1Start { c with t1lh := d }).ifr :=
  clearFlags_flagFell (m := flagT1) (by decide) (by decide)
    { c with t1lh := d, t1c := timerValue d c.t1ll, t1on := true, t1arm := true, t1pb7 := false }

/-- Starting timer 2 takes its flag down (40_controller_bus.md R143). -/
theorem t2Start_flagFell (c : Controller) (d : Byte) : flagFell 5 c (c.t2Start d).ifr :=
  clearFlags_flagFell (m := flagT2) (by decide) (by decide)
    { c with t2lh := d, t2c := timerValue d c.t2ll, t2on := true, t2arm := true }

/-- A shift-register access takes the flag down (40_controller_bus.md R144). -/
theorem srAccess_flagFell (c : Controller) : flagFell 2 c c.srAccess.ifr :=
  clearFlags_flagFell (m := flagSR) (by decide) (by decide) { c with srcnt := 0, srph := true }

/-- `T1Start()` with a new high latch, as an update of the registers it writes (40_controller_bus.md R142). -/
theorem t1Start_eq (c : Controller) (d : Byte) :
    Controller.t1Start { c with t1lh := d } = { c with
      t1lh := d, t1c := pair d c.t1ll, ifr := (Controller.t1Start { c with t1lh := d }).ifr
      t1on := true, t1arm := true, t1pb7 := false } := by
  rw [← timerValue_eq_pair]
  rfl

/-- `T2Start(d)`, as an update of the registers it writes (40_controller_bus.md R143). -/
theorem t2Start_eq (c : Controller) (d : Byte) :
    c.t2Start d = { c with
      t2lh := d, t2c := pair d c.t2ll, ifr := (c.t2Start d).ifr, t2on := true, t2arm := true } := by
  rw [← timerValue_eq_pair]
  rfl

end Sys2Proof.Machine

namespace Sys2Proof

open Sys2Proof.Machine Sys2Proof.Claim

/-- Settles O9: both reads by definition; under the invariant bit 7 is the aggregate and the flags nothing sets are down. -/
theorem timer2HighAndFlagReadsChangeNothing : Obligations.Timer2HighAndFlagReadsChangeNothing := by
  intro s
  refine ⟨?_, rfl, fun ⟨⟨_, hagg, hunset⟩, _⟩ => ?_⟩
  · rw [← counterHigh_eq_div]
    rfl
  · have hbit (i : Nat) : (s.c.ifr &&& 0x1B#8).getLsbD i = false := by rw [hunset, BitVec.getLsbD_zero]
    refine ⟨?_, by simpa using hbit 4, by simpa using hbit 3, by simpa using hbit 1, by simpa using hbit 0⟩
    rw [aggregated, hagg]
    exact irqAggregate_iff ..

/-- Settles O10: the read is `C.portB` under the hook's byte, bit by bit. -/
theorem portBReadComposesRegisterToggleAndCompare : Obligations.PortBReadComposesRegisterToggleAndCompare := by
  intro s
  refine ⟨s.portB, rfl, portB_bit7 .., fun i hi => ?_⟩
  rw [State.portB, portB_bit _ _ _ hi, hookReadPB_bit s hi]

/-- Settles O11: both reads return `portA`, and only `CRD 1` accesses line 1. -/
theorem portAReadsReturnDrivenByteOrRegister : Obligations.PortAReadsReturnDrivenByteOrRegister := by
  intro s
  rw [← portA_eq_portAByte, ← line1Access_eq_drivesLow]
  exact ⟨rfl, rfl⟩

/-- Settles O13: both accesses are `SrAccess()`, which takes flag 2 down. -/
theorem shiftRegisterAccessesRestartTheCount : Obligations.ShiftRegisterAccessesRestartTheCount := fun s d =>
  ⟨⟨_, srAccess_flagFell s.c, rfl⟩, _, srAccess_flagFell { s.c with sr := d }, rfl⟩

/-- Settles O15: `CWR 5` is `T1Start()` under the new latch, and so is `CWR 7` where the parameter has it start. -/
theorem timer1WritesLoadAndStart : Obligations.Timer1WritesLoadAndStart := by
  intro s d
  refine ⟨rfl, _, t1Start_flagFell s.c d, ?_, ?_⟩
  · rw [← t1Start_eq]
    rfl
  · rw [← t1Start_eq]
    change Host.Outcome.next (s.mapC (Controller.writeT1LatchHigh s.cfg d)) = _
    unfold Controller.writeT1LatchHigh
    cases s.cfg.t1LatchHiWriteStarts <;> rfl

/-- Settles O16: `CWR 9` is `T2Start(d)`. -/
theorem timer2HighWriteLoadsAndStarts : Obligations.Timer2HighWriteLoadsAndStarts := by
  intro s d
  refine ⟨_, t2Start_flagFell s.c d, ?_⟩
  rw [← t2Start_eq]
  rfl

/-- Settles O20: the two levels by the mode fields of the byte written. -/
theorem controlWriteSetsBothLines : Obligations.ControlWriteSetsBothLines := by
  intro s d
  rw [← line1Field_toNat, ← line2Field_toNat, ← pcrLevel_eq, ← pcrLevel_eq]
  rfl

/-- Settles O22: each pair runs by definition; the start of timer 1 by `CWR 7` leaves the latch it wrote. -/
theorem registerWritesReadBackTheByteWritten : Obligations.RegisterWritesReadBackTheByteWritten := by
  intro s d
  have hlatch : (s.c.writeT1LatchHigh s.cfg d).t1lh = d := by
    unfold Controller.writeT1LatchHigh
    split <;> rfl
  refine ⟨rfl, rfl, rfl, ⟨_, rfl, hlatch, ?_⟩, rfl, _, rfl, rfl, rfl⟩
  exact congrArg (fun b => s.out ++ [.byte b]) hlatch

/-- Settles O33: Phase B in arithmetic, and that it is idempotent. -/
theorem phaseBRestoresPulseLinesOnce : Obligations.PhaseBRestoresPulseLinesOnce := by
  intro s
  constructor
  · rw [← phaseB_eq]
    rfl
  · exact congrArg (fun c => Host.Outcome.next { s with c := c }) (phaseB_phaseB s.c)

/-- Settles O40: the line is bit 7, which the invariant makes the aggregate. -/
theorem instructionBoundaryHandsOverTheAggregate : Obligations.InstructionBoundaryHandsOverTheAggregate := by
  refine fun s => ⟨s.irqLine, rfl, rfl, fun ⟨⟨_, hagg, _⟩, _⟩ => ?_⟩
  rw [State.irqLine, hagg]
  exact irqAggregate_iff ..

/-- Settles O43: the read by definition. -/
theorem synthReadReturnsTheRawByte : Obligations.SynthReadReturnsTheRawByte := fun _ _ => rfl

/-- Settles O46: no rule runs after the raw store of these three registers. -/
theorem maskAndLatchWritesOnlyStore : Obligations.MaskAndLatchWritesOnlyStore := fun _ _ => ⟨rfl, rfl, rfl⟩

/-- Settles O58: both inputs by definition. -/
theorem hostInputsWriteOneElement : Obligations.HostInputsWriteOneElement := fun _ _ _ => ⟨rfl, rfl⟩

end Sys2Proof
end

section
/-! The port writes: the register-select protocol and the sample update in arithmetic, and the pseudo-instruction `PSGW` that
drives the protocol (45_scheduler.md section 3, 30_encoding.md R121). -/

namespace Sys2Proof.Machine

open Sys2Proof.Claim

/-! ### The register-select protocol -/

theorem addressHigh_eq_zero (v : Byte) : v.extractLsb' 4 4 = 0#4 ↔ v.toNat < 16 := by
  rw [← BitVec.toNat_inj, extractLsb'_toNat_div, BitVec.toNat_ofNat]
  omega

theorem addressLow_eq (v : Byte) : v.extractLsb' 0 4 = BitVec.ofNat 4 v.toNat := by
  apply BitVec.eq_of_toNat_eq
  rw [extractLsb'_toNat_div, BitVec.toNat_ofNat]
  omega

/-- `PsgProtocol()` in arithmetic (45_scheduler.md R375). -/
theorem psgProtocol_eq_protocol (s : State) : s.psgProtocol = protocol s := by
  unfold State.psgProtocol protocol
  rw [psgControl_toNat]
  split
  · next h =>
    by_cases h14 : s.g.sel = 14#4
    · simp [h, h14]
    · simp [h, h14, State.mapSyn]
  · next h => simp [h, addressHigh_eq_zero, addressLow_eq, State.mapG]
  · next h2 h3 => rw [if_neg fun h => h2 h.1, if_neg fun h => h3 h.1]

/-- The protocol changes the Synthesizer and the selection only. -/
theorem protocol_frame (s : State) :
    (protocol s).cfg = s.cfg ∧ (protocol s).c = s.c ∧ (protocol s).b = s.b ∧ (protocol s).out = s.out := by
  obtain ⟨hcfg, hc, hb, -, -, hout, -⟩ := psgProtocol_frame s
  rw [← psgProtocol_eq_protocol]
  exact ⟨hcfg, hc, hb, hout⟩

/-! ### The sample update -/

theorem muxSelect_toNat (orb : Byte) : (muxSelect orb).toNat = orb.toNat / 2 % 4 := extractLsb'_toNat_div orb 1 2

theorem demuxEnabled_iff (orb : Byte) : demuxEnabled orb = true ↔ orb.toNat % 2 = 0 := by
  rw [demuxEnabled, getLsbD_eq_decide, Nat.pow_zero, Nat.div_one, Bool.not_eq_true', decide_eq_false_iff_not]
  omega

/-- The intensity X latches is the part of it above 128 (44_beam_engine.md R322). -/
theorem intensityOf_eq_sub (x : Byte) : Beam.intensityOf x = BitVec.ofNat 8 (x.toNat - 128) := by
  unfold Beam.intensityOf
  split
  · bv_omega
  · next h => rw [Nat.sub_eq_zero_of_le (not_lt.1 h)]

/-- `SampleUpdate()` in arithmetic (44_beam_engine.md R321 to R324). -/
theorem sampleUpdate_eq_sampled (orb : Byte) (b : Beam) : b.sampleUpdate orb = sampled orb b := by
  unfold Beam.sampleUpdate Beam.muxUpdate sampled
  simp only [demuxEnabled_iff, Beam.axis, muxSelect_toNat]
  by_cases h0 : orb.toNat % 2 = 0
  · simp only [h0, if_true, true_and, Beam.latch, muxSelect_toNat]
    split
    · next h => simp [h, Beam.derive]
    · next h => simp [h, Beam.derive]
    · next h => simp [h, Beam.derive, intensityOf_eq_sub]
    · next h1 h2 h3 =>
      simp only [imp_false] at h1 h2 h3
      simp [h1, h2, h3, Beam.derive]
  · simp [h0, Beam.derive]

/-- `BeamSetX` latches X, then updates the samples (44_beam_engine.md R336). -/
theorem setX_eq_sampled (orb v : Byte) (b : Beam) : b.setX orb v = sampled orb { b with xsh := v } :=
  sampleUpdate_eq_sampled ..

theorem xor_topBit_eq (d : Byte) : d ^^^ 0x80#8 = BitVec.ofNat 8 ((d.toNat + 128) % 256) := by
  have h : d ^^^ 0x80#8 = d + 0x80#8 := by
    revert d
    decide
  rw [h]
  apply BitVec.eq_of_toNat_eq
  rw [BitVec.toNat_add, BitVec.toNat_ofNat, BitVec.toNat_ofNat]
  omega

/-! ### The hooks -/

/-- `HookWritePB`: the protocol, then the samples under the port-B byte (45_scheduler.md R372). -/
theorem hookWritePB_eq (s : State) : s.hookWritePB = { protocol s with b := sampled s.c.orb s.b } := by
  obtain ⟨-, hc, hb, -⟩ := protocol_frame s
  simp only [State.hookWritePB, State.mapB, psgProtocol_eq_protocol, sampleUpdate_eq_sampled, hc, hb]

/-- `HookWritePA`: the protocol, then X from the byte with its top bit inverted, and the samples (45_scheduler.md R371). -/
theorem hookWritePA_eq (d : Byte) (s : State) :
    s.hookWritePA d = { protocol s with
      b := sampled s.c.orb { s.b with xsh := BitVec.ofNat 8 ((d.toNat + 128) % 256) } } := by
  obtain ⟨-, hc, hb, -⟩ := protocol_frame s
  simp only [State.hookWritePA, State.mapB, psgProtocol_eq_protocol, setX_eq_sampled, xor_topBit_eq, hc, hb]

/-- The protocol reads the configuration, the port registers, the selection and the Synthesizer: a line level changed before
it stays changed after it. -/
theorem protocol_setCa2 (s : State) (l : Bool) :
    protocol { s with c := { s.c with ca2 := l } } = { protocol s with c := { s.c with ca2 := l } } := by
  simp only [protocol]
  split
  · rfl
  · split <;> rfl

/-- `CWR 0, d` (40_controller_bus.md R161). -/
theorem exec_cwr0 (s : State) (d : Byte) :
    exec (.cwr0 d) s = .next { protocol { s with c := { s.c with orb := d } } with
      c := { s.c with orb := d, cb2h := if drivesLow s.cfg (line2 s.c) then false else s.c.cb2h }
      b := sampled d s.b } := by
  obtain ⟨-, hc, -⟩ := protocol_frame { s with c := { s.c with orb := d } }
  change Host.Outcome.next ((State.hookWritePB { s with c := { s.c with orb := d } }).mapC (Controller.line2Access s.cfg)) = _
  simp only [hookWritePB_eq, State.mapC, hc, line2Access_eq_drivesLow]
  rfl

/-- `CWR F, d` (40_controller_bus.md R176). -/
theorem exec_cwrF (s : State) (d : Byte) :
    exec (.cwrF d) s = .next { protocol { s with c := { s.c with ora := d } } with
      b := sampled s.c.orb { s.b with xsh := BitVec.ofNat 8 ((d.toNat + 128) % 256) } } := by
  change Host.Outcome.next (State.hookWritePA d { s with c := { s.c with ora := d } }) = _
  rw [hookWritePA_eq]

/-- `CWR 1, d` (40_controller_bus.md R162). -/
theorem exec_cwr1 (s : State) (d : Byte) :
    exec (.cwr1 d) s = .next { protocol { s with c := { s.c with ora := d } } with
      c := { s.c with ora := d, ca2 := if drivesLow s.cfg (line1 s.c) then false else s.c.ca2 }
      b := sampled s.c.orb { s.b with xsh := BitVec.ofNat 8 ((d.toNat + 128) % 256) } } := by
  change Host.Outcome.next (State.hookWritePA d
    (((s.mapC (Controller.line1Access s.cfg)).mapC fun c => { c with ora := d }))) = _
  rw [hookWritePA_eq]
  simp only [State.mapC, line1Access_eq_drivesLow]
  exact congrArg (fun u : State => Host.Outcome.next { u with
      b := sampled s.c.orb { s.b with xsh := BitVec.ofNat 8 ((d.toNat + 128) % 256) } })
    (protocol_setCa2 { s with c := { s.c with ora := d } } _)

/-- A run goes on from the next state of its first request. -/
theorem execAll_cons_of_next {i : Instr} {is : List Instr} {s t : State} (h : exec i s = .next t) :
    execAll (i :: is) s = execAll is t := by
  rw [execAll, h, andThen_next]

/-! ### The protocol by its code -/

theorem protocol_of_idle {s : State} (h2 : s.c.orb.toNat / 8 % 4 ≠ 2) (h3 : s.c.orb.toNat / 8 % 4 ≠ 3) : protocol s = s := by
  rw [protocol, if_neg fun h => h2 h.1, if_neg fun h => h3 h.1]

theorem protocol_of_select {s : State} (h3 : s.c.orb.toNat / 8 % 4 = 3) (ha : s.c.ora.toNat < 16) :
    protocol s = { s with g := { s.g with sel := BitVec.ofNat 4 s.c.ora.toNat } } := by
  rw [protocol, if_neg (by omega), if_pos ⟨h3, ha⟩]

theorem protocol_of_write {s : State} (h2 : s.c.orb.toNat / 8 % 4 = 2) (h14 : s.g.sel ≠ 14#4) :
    protocol s = { s with syn := s.syn.write s.cfg s.g.sel s.c.ora } := by
  rw [protocol, if_pos ⟨h2, h14⟩]

/-- What the protocol reads and changes, with the outputs: the state's values of these six. -/
structure HasPorts (s : State) (p : Params) (y : Synth) (g : Glue) (ora orb : Byte) (os : List Output) : Prop where
  cfg : s.cfg = p
  syn : s.syn = y
  g : s.g = g
  ora : s.c.ora = ora
  orb : s.c.orb = orb
  out : s.out = os

section

variable {s : State} {p : Params} {y : Synth} {g : Glue} {ora orb : Byte} {os : List Output}

/-- `CWR 0, d` leaves what the protocol under the new byte leaves. -/
theorem HasPorts.cwr0 {d : Byte} (h : HasPorts (protocol { s with c := { s.c with orb := d } }) p y g ora orb os) :
    ∃ t, exec (.cwr0 d) s = .next t ∧ HasPorts t p y g ora orb os := by
  obtain ⟨-, hc, -⟩ := protocol_frame { s with c := { s.c with orb := d } }
  obtain ⟨hcfg, hsyn, hg, ha, hb, hout⟩ := h
  rw [hc] at ha hb
  exact ⟨_, exec_cwr0 s d, hcfg, hsyn, hg, ha, hb, hout⟩

/-- `CWR 1, d` leaves what the protocol with the new byte leaves. -/
theorem HasPorts.cwr1 {d : Byte} (h : HasPorts (protocol { s with c := { s.c with ora := d } }) p y g ora orb os) :
    ∃ t, exec (.cwr1 d) s = .next t ∧ HasPorts t p y g ora orb os := by
  obtain ⟨-, hc, -⟩ := protocol_frame { s with c := { s.c with ora := d } }
  obtain ⟨hcfg, hsyn, hg, ha, hb, hout⟩ := h
  rw [hc] at ha hb
  exact ⟨_, exec_cwr1 s d, hcfg, hsyn, hg, ha, hb, hout⟩

theorem HasPorts.cwr0_idle {d : Byte} (h : HasPorts s p y g ora orb os) (hd : d.toNat / 8 % 4 = 0) :
    ∃ t, exec (.cwr0 d) s = .next t ∧ HasPorts t p y g ora d os := by
  apply HasPorts.cwr0
  rw [protocol_of_idle (by simp only; omega) (by simp only; omega)]
  exact ⟨h.cfg, h.syn, h.g, h.ora, rfl, h.out⟩

theorem HasPorts.cwr0_select {d : Byte} (h : HasPorts s p y g ora orb os) (hd : d.toNat / 8 % 4 = 3) (ha : ora.toNat < 16) :
    ∃ t, exec (.cwr0 d) s = .next t ∧ HasPorts t p y { g with sel := BitVec.ofNat 4 ora.toNat } ora d os := by
  obtain ⟨hcfg, hsyn, rfl, rfl, -, hout⟩ := h
  apply HasPorts.cwr0
  rw [protocol_of_select (by exact hd) (by exact ha)]
  exact ⟨hcfg, hsyn, rfl, rfl, rfl, hout⟩

theorem HasPorts.cwr0_write {d : Byte} (h : HasPorts s p y g ora orb os) (hd : d.toNat / 8 % 4 = 2) (h14 : g.sel ≠ 14#4) :
    ∃ t, exec (.cwr0 d) s = .next t ∧ HasPorts t p (y.write p g.sel ora) g ora d os := by
  obtain ⟨rfl, rfl, rfl, rfl, -, hout⟩ := h
  apply HasPorts.cwr0
  rw [protocol_of_write (by exact hd) (by exact h14)]
  exact ⟨rfl, rfl, rfl, rfl, rfl, hout⟩

theorem HasPorts.cwr1_idle {d : Byte} (h : HasPorts s p y g ora orb os) (hb : orb.toNat / 8 % 4 = 0) :
    ∃ t, exec (.cwr1 d) s = .next t ∧ HasPorts t p y g d orb os := by
  obtain ⟨hcfg, hsyn, hg, -, rfl, hout⟩ := h
  apply HasPorts.cwr1
  rw [protocol_of_idle (by simp only; omega) (by simp only; omega)]
  exact ⟨hcfg, hsyn, hg, rfl, rfl, hout⟩

/-- Outside its write code the protocol can only take the byte of `CWR 1` for a selection. -/
theorem HasPorts.cwr1_select {d : Byte} (h : HasPorts s p y g ora orb os) (hb : orb.toNat / 8 % 4 ≠ 2) (hd : d.toNat < 16) :
    ∃ sel t, exec (.cwr1 d) s = .next t ∧ HasPorts t p y { g with sel := sel } d orb os := by
  obtain ⟨hcfg, hsyn, rfl, -, rfl, hout⟩ := h
  by_cases h3 : s.c.orb.toNat / 8 % 4 = 3
  · refine ⟨BitVec.ofNat 4 d.toNat, HasPorts.cwr1 ?_⟩
    rw [protocol_of_select (by exact h3) (by exact hd)]
    exact ⟨hcfg, hsyn, rfl, rfl, rfl, hout⟩
  · refine ⟨s.g.sel, HasPorts.cwr1 ?_⟩
    rw [protocol_of_idle (by exact hb) (by exact h3)]
    exact ⟨hcfg, hsyn, rfl, rfl, rfl, hout⟩

end

end Sys2Proof.Machine

namespace Sys2Proof

open Sys2Proof.Machine Sys2Proof.Claim

/-- Settles O17: the hook's protocol and sample update in arithmetic, after the register. -/
theorem portBWriteRunsProtocolAndSampleUpdate : Obligations.PortBWriteRunsProtocolAndSampleUpdate := exec_cwr0

/-- Settles O18: the hook's protocol, latch and sample update in arithmetic, after the register and, for `CWR 1`, line 1. -/
theorem portAWritesDriveProtocolAndBeam : Obligations.PortAWritesDriveProtocolAndBeam := fun s d =>
  ⟨exec_cwr1 s d, exec_cwrF s d⟩

/-- Settles O42: the six writes one after another, the third and the last of them idle: the second selects the register,
the fifth writes it. -/
theorem portProtocolWritesTheRegister : Obligations.PortProtocolWritesTheRegister := by
  intro s r v hb hr h14
  have hsel : BitVec.ofNat 4 r.toNat ≠ 14#4 := by
    rw [Ne, ← BitVec.toNat_inj, BitVec.toNat_ofNat, Nat.mod_eq_of_lt hr]
    exact h14
  have p0 : HasPorts s s.cfg s.syn s.g s.c.ora s.c.orb s.out := ⟨rfl, rfl, rfl, rfl, rfl, rfl⟩
  obtain ⟨_, s1, e1, p1⟩ := p0.cwr1_select hb hr
  obtain ⟨s2, e2, p2⟩ := p1.cwr0_select (d := 0x19) (by decide) hr
  obtain ⟨s3, e3, p3⟩ := p2.cwr0_idle (d := 0x01) (by decide)
  obtain ⟨s4, e4, p4⟩ := p3.cwr1_idle (d := v) (by decide)
  obtain ⟨s5, e5, p5⟩ := p4.cwr0_write (d := 0x11) (by decide) hsel
  obtain ⟨s6, e6, p6⟩ := p5.cwr0_idle (d := 0x01) (by decide)
  refine ⟨s6, ?_, p6.syn, p6.g, p6.ora, p6.orb, p6.out⟩
  rw [psgW, execAll_cons_of_next e1, execAll_cons_of_next e2, execAll_cons_of_next e3, execAll_cons_of_next e4,
    execAll_cons_of_next e5, execAll_cons_of_next e6, execAll]

end Sys2Proof
end

section
/-! Phase A in arithmetic: each of its four parts as an update from the state before it, and their composition
(41_controller_cycle.md section 1). -/

namespace Sys2Proof.Machine

open Sys2Proof.Claim

/-! ### Control-register bits and counters in arithmetic -/

theorem acrT1Free_eq (acr : Byte) : acrT1Free acr = decide (acr.toNat / 64 % 2 = 1) := getLsbD_eq_decide acr 6

theorem acrT2Pulse_eq (acr : Byte) : acrT2Pulse acr = decide (acr.toNat / 32 % 2 = 1) := getLsbD_eq_decide acr 5

theorem counter_pred_eq (c : Word) : c - 1#16 = BitVec.ofNat 16 (c.toNat + 65535) := by
  bv_omega

theorem divider_pred_eq {c : Byte} (h : c ≠ 0#8) : c - 1#8 = BitVec.ofNat 8 (c.toNat - 1) := by
  bv_omega

theorem byte_toNat_eq_zero (b : Byte) : b.toNat = 0 ↔ b = 0#8 := by
  rw [← BitVec.toNat_inj]
  rfl

theorem word_toNat_eq_zero (w : Word) : w.toNat = 0 ↔ w = 0#16 := by
  rw [← BitVec.toNat_inj]
  rfl

theorem byte_bit7 (b : Byte) : b.getLsbD 7 = decide (128 ≤ b.toNat) := by
  rw [getLsbD_eq_decide]
  exact decide_eq_decide.2 (by omega)

/-- A byte shifted left with its top bit entering at bit 0, in arithmetic. -/
theorem rotated_eq (b : Byte) : (b <<< 1 ||| if b.getLsbD 7 then 1#8 else 0#8)
    = BitVec.ofNat 8 (2 * b.toNat + if 128 ≤ b.toNat then 1 else 0) := by
  revert b
  decide

theorem shifted_eq (b : Byte) : b <<< 1 = BitVec.ofNat 8 (2 * b.toNat) := by
  revert b
  decide

/-! ### The flag byte -/

/-- The flag byte `g` is `f` with flag `n` raised and the aggregate recomputed where `P` holds, and `f` itself elsewhere. -/
structure FlagRaise (n : Nat) (P : Prop) (e : BitVec 7) (f g : Byte) : Prop where
  flag : ∀ i, i < 7 → (g.getLsbD i = true ↔ f.getLsbD i = true ∨ (i = n ∧ P))
  aggregate : P → aggregated g e
  same : ¬ P → g = f

theorem FlagRaise.of_not {n : Nat} {P : Prop} (h : ¬ P) (e : BitVec 7) (f : Byte) : FlagRaise n P e f f :=
  ⟨fun i _ => by simp [h], fun hp => absurd hp h, fun _ => rfl⟩

theorem FlagRaise.of_raiseFlag {n : Nat} {P : Prop} {m : Byte} (hm : ∀ i, i < 7 → m.getLsbD i = decide (i = n)) (h : P)
    (c : Controller) : FlagRaise n P c.ier c.ifr (raiseFlag m c).ifr := by
  refine ⟨fun i hi => ?_, fun _ => irqUpdate_aggregated _, fun hn => absurd h hn⟩
  rw [raiseFlag_flag m c hi, hm i hi]
  simp [h]

theorem flagT1_bit : ∀ i, i < 7 → flagT1.getLsbD i = decide (i = 6) := by decide
theorem flagT2_bit : ∀ i, i < 7 → flagT2.getLsbD i = decide (i = 5) := by decide
theorem flagSR_bit : ∀ i, i < 7 → flagSR.getLsbD i = decide (i = 2) := by decide

namespace Controller

/-! ### The four parts -/

/-- `Timer1Step()` in arithmetic (R201). -/
theorem timer1Step_spec (c : Controller) : ∃ f, FlagRaise 6 (t1Fires c) c.ier c.ifr f ∧ c.timer1Step = { c with
    t1c := if c.t1on = true then
        (if t1Wraps c ∧ t1Free c then pair c.t1lh c.t1ll else BitVec.ofNat 16 (c.t1c.toNat + 65535))
      else c.t1c
    t1pb7 := if t1Wraps c ∧ t1Free c then !c.t1pb7 else if t1Fires c then true else c.t1pb7
    t1arm := if t1Wraps c ∧ ¬ t1Free c then false else c.t1arm
    ifr := f } := by
  have hfree : acrT1Free c.acr = true ↔ t1Free c := by rw [acrT1Free_eq, decide_eq_true_eq]
  have hwrap : t1Wraps c ↔ c.t1on = true ∧ c.t1c = 0#16 := by rw [t1Wraps, word_toNat_eq_zero]
  rcases timer1Step_cases c with
    ⟨hon, e⟩ | ⟨hon, hz, e⟩ | ⟨hon, hz, hf, e⟩ | ⟨hon, hz, hf, ha, e⟩ | ⟨hon, hz, hf, ha, e⟩
  · have hw : ¬ t1Wraps c := by simp [hwrap, hon]
    refine ⟨c.ifr, .of_not (fun h => hw h.1) .., ?_⟩
    rw [e, if_neg (by simp [hon])]
    simp [hw, t1Fires]
  · have hw : ¬ t1Wraps c := by simp [hwrap, hz]
    exact ⟨c.ifr, .of_not (fun h => hw h.1) .., by simp [e, hw, hon, t1Fires, counter_pred_eq]⟩
  · have hw : t1Wraps c := hwrap.2 ⟨hon, hz⟩
    have hf' : t1Free c := hfree.1 hf
    refine ⟨_, .of_raiseFlag flagT1_bit ⟨hw, .inl hf'⟩ { c with t1c := timerValue c.t1lh c.t1ll, t1pb7 := !c.t1pb7 }, ?_⟩
    rw [e, raiseFlag_frame, timerValue_eq_pair]
    simp [hw, hf']
  · have hw : t1Wraps c := hwrap.2 ⟨hon, hz⟩
    have hf' : ¬ t1Free c := fun h => by simp [hfree.2 h] at hf
    refine ⟨_, .of_raiseFlag flagT1_bit ⟨hw, .inr ha⟩ { c with t1c := 0xFFFF#16, t1pb7 := true, t1arm := false }, ?_⟩
    rw [e, raiseFlag_frame]
    simp [hw, hf', hz, t1Fires, ha]
  · have hw : t1Wraps c := hwrap.2 ⟨hon, hz⟩
    have hf' : ¬ t1Free c := fun h => by simp [hfree.2 h] at hf
    have hfires : ¬ t1Fires c := by simp [hf', ha]
    exact ⟨c.ifr, .of_not hfires .., by simp [e, hw, hf', hz, hfires, ha]⟩

/-- `Timer2Step()` in arithmetic (R202). -/
theorem timer2Step_spec (c : Controller) : ∃ f, FlagRaise 5 (t2Fires c) c.ier c.ifr f ∧ c.timer2Step = { c with
    t2c := if t2Counts c then BitVec.ofNat 16 (c.t2c.toNat + 65535) else c.t2c
    t2arm := if t2Fires c then false else c.t2arm
    ifr := f } := by
  have hpulse : acrT2Pulse c.acr = false ↔ c.acr.toNat / 32 % 2 = 0 := by
    rw [acrT2Pulse_eq, decide_eq_false_iff_not]
    omega
  rcases timer2Step_cases c with ⟨h, e⟩ | ⟨hon, hp, h, e⟩ | ⟨hon, hp, hz, ha, e⟩
  · have hc : ¬ t2Counts c := fun ⟨hon, hm⟩ => by
      rcases h with h | h
      · simp [hon] at h
      · simp [hpulse.2 hm] at h
    exact ⟨c.ifr, .of_not (fun h => hc h.1) .., by simp [e, hc, t2Fires]⟩
  · have hc : t2Counts c := ⟨hon, hpulse.1 hp⟩
    have hf : ¬ t2Fires c := fun ⟨_, hz, ha⟩ => by
      rw [word_toNat_eq_zero] at hz
      rcases h with h | h
      · exact h hz
      · simp [ha] at h
    exact ⟨c.ifr, .of_not hf .., by simp [e, hc, hf, counter_pred_eq]⟩
  · have hc : t2Counts c := ⟨hon, hpulse.1 hp⟩
    have hf : t2Fires c := ⟨hc, (word_toNat_eq_zero _).2 hz, ha⟩
    refine ⟨_, .of_raiseFlag flagT2_bit hf { c with t2c := 0xFFFF#16, t2arm := false }, ?_⟩
    rw [e, raiseFlag_frame]
    simp [hc, hf, hz]

/-- `DividerStep()` in arithmetic (R203). -/
theorem dividerStep_spec (c : Controller) : c.dividerStep = ({ c with
    srdiv := if c.srdiv.toNat = 0 then c.t2ll else BitVec.ofNat 8 (c.srdiv.toNat - 1)
    srph := if c.srdiv.toNat = 0 then !c.srph else c.srph }, decide (pulse c)) := by
  rcases dividerStep_cases c with ⟨hz, e⟩ | ⟨hz, e⟩
  · simp [e, hz, pulse]
  · simp [e, hz, byte_toNat_eq_zero, pulse, divider_pred_eq hz]

/-- The shift register moves, given the pulse (R204 to R212). -/
abbrev ShiftsOn (p : Bool) (c : Controller) : Prop :=
  c.srcnt < 8 ∧ (mode c = 2 ∨ mode c = 6 ∨ ((mode c = 1 ∨ mode c = 4 ∨ mode c = 5) ∧ p = true))

/-- `ShiftMode[m](pulse)` in arithmetic, while fewer than 8 bits are counted (R205 to R212). -/
theorem shiftByMode_eq {c : Controller} (p : Bool) (h : c.srcnt < 8) : c.shiftByMode p = { c with
    sr := if ShiftsOn p c then
        BitVec.ofNat 8 (2 * c.sr.toNat + if 4 ≤ mode c ∧ 128 ≤ c.sr.toNat then 1 else 0)
      else c.sr
    cb2s := if ShiftsOn p c ∧ 4 ≤ mode c then decide (128 ≤ c.sr.toNat) else c.cb2s
    srcnt := if ShiftsOn p c ∧ mode c ≠ 4 then c.srcnt + 1 else c.srcnt } := by
  have hm : mode c < 8 := Nat.mod_lt _ (by decide)
  have hout : c.shiftOut = { c with
      cb2s := decide (128 ≤ c.sr.toNat), sr := BitVec.ofNat 8 (2 * c.sr.toNat + if 128 ≤ c.sr.toNat then 1 else 0) } := by
    rw [shiftOut, rotated_eq, byte_bit7]
  have hin : c.shiftIn = { c with sr := BitVec.ofNat 8 (2 * c.sr.toNat), srcnt := c.srcnt + 1 } := by
    rw [shiftIn, shifted_eq]
  obtain ⟨m, hmode⟩ : ∃ m, mode c = m := ⟨_, rfl⟩
  rw [hmode] at hm
  interval_cases m <;> cases p <;> simp only [shiftByMode, shiftMode, shiftField_toNat, hmode] <;>
    simp [ShiftsOn, hmode, h, hin, hout, countShift]

/-- `ShiftStep(pulse)` in arithmetic (R204, R213). -/
theorem shiftStep_spec (p : Bool) (c : Controller) :
    ∃ f, FlagRaise 2 ((ShiftsOn p c ∧ mode c ≠ 4) ∧ c.srcnt = 7) c.ier c.ifr f ∧ c.shiftStep p = { c with
      sr := if ShiftsOn p c then
          BitVec.ofNat 8 (2 * c.sr.toNat + if 4 ≤ mode c ∧ 128 ≤ c.sr.toNat then 1 else 0)
        else c.sr
      cb2s := if ShiftsOn p c ∧ 4 ≤ mode c then decide (128 ≤ c.sr.toNat) else c.cb2s
      srcnt := if ShiftsOn p c ∧ mode c ≠ 4 then c.srcnt + 1 else c.srcnt
      ifr := f } := by
  rcases shiftStep_cases p c with ⟨h8, e⟩ | ⟨hlt, h8, e⟩ | ⟨hlt, h8, e⟩
  · have hs : ¬ ShiftsOn p c := fun h => absurd h.1 (by omega)
    exact ⟨c.ifr, .of_not (fun h => hs h.1.1) .., by simp only [e, hs, false_and, if_false]⟩
  · rw [shiftByMode_eq p hlt] at h8 e
    refine ⟨c.ifr, .of_not (fun ⟨hs, h7⟩ => h8 ?_) .., e⟩
    simp only [if_pos hs, h7]
  · rw [shiftByMode_eq p hlt] at h8 e
    have hfires : (ShiftsOn p c ∧ mode c ≠ 4) ∧ c.srcnt = 7 := by
      by_cases hs : ShiftsOn p c ∧ mode c ≠ 4
      · simp only [if_pos hs] at h8
        exact ⟨hs, by omega⟩
      · simp only [if_neg hs] at h8
        omega
    exact ⟨_, .of_raiseFlag flagSR_bit hfires _, e.trans (raiseFlag_frame ..)⟩

/-- Phase A as one update from the state before it: no part reads what an earlier part writes, but for the flag byte, which
the three flags go into one after another (R200). -/
theorem phaseA_spec (c : Controller) : ∃ f₁ f₂ f, FlagRaise 6 (t1Fires c) c.ier c.ifr f₁
    ∧ FlagRaise 5 (t2Fires c) c.ier f₁ f₂ ∧ FlagRaise 2 (srFires c) c.ier f₂ f ∧ c.phaseA = Claim.phaseA f c := by
  obtain ⟨f₁, h₁, e₁⟩ := timer1Step_spec c
  obtain ⟨f₂, h₂, e₂⟩ := timer2Step_spec c.timer1Step
  obtain ⟨f, h₃, e₃⟩ := shiftStep_spec (decide (pulse c.timer1Step.timer2Step)) c.timer1Step.timer2Step.dividerStep.1
  rw [dividerStep_spec] at h₃ e₃
  rw [e₂, e₁] at h₃ e₃
  rw [e₁] at h₂
  simp only [ShiftsOn, decide_eq_true_eq] at h₃ e₃
  refine ⟨f₁, f₂, f, h₁, h₂, h₃, ?_⟩
  rw [phaseA, dividerStep_spec, e₂, e₁]
  exact e₃

theorem phaseA_eq (c : Controller) : c.phaseA = Claim.phaseA c.phaseA.ifr c := by
  obtain ⟨_, _, f, -, -, -, e⟩ := phaseA_spec c
  rw [e]
  rfl

/-- A flag is up after Phase A if it was, or if its source fires (R201, R202, R213). -/
theorem phaseA_flag (c : Controller) {i : Nat} (hi : i < 7) : c.phaseA.ifr.getLsbD i = true ↔
    c.ifr.getLsbD i = true ∨ (i = 6 ∧ t1Fires c) ∨ (i = 5 ∧ t2Fires c) ∨ (i = 2 ∧ srFires c) := by
  obtain ⟨f₁, f₂, f, h₁, h₂, h₃, e⟩ := phaseA_spec c
  rw [e]
  refine (h₃.flag i hi).trans ?_
  rw [h₂.flag i hi, h₁.flag i hi, or_assoc, or_assoc]

/-- Where a source fires the aggregate is recomputed, by the last that does. -/
theorem phaseA_aggregated {c : Controller} (h : fires c) : aggregated c.phaseA.ifr c.ier := by
  obtain ⟨f₁, f₂, f, h₁, h₂, h₃, e⟩ := phaseA_spec c
  rw [e]
  change aggregated f c.ier
  by_cases hs : srFires c
  · exact h₃.aggregate hs
  rw [h₃.same hs]
  by_cases h2 : t2Fires c
  · exact h₂.aggregate h2
  rw [h₂.same h2]
  exact h₁.aggregate (h.resolve_right (by simp only [h2, hs, or_self, not_false_eq_true]))

/-- Where no source fires the flag byte stays. -/
theorem phaseA_ifr_of_not_fires {c : Controller} (h : ¬ fires c) : c.phaseA.ifr = c.ifr := by
  obtain ⟨f₁, f₂, f, h₁, h₂, h₃, e⟩ := phaseA_spec c
  obtain ⟨h1, h2, hs⟩ : ¬ t1Fires c ∧ ¬ t2Fires c ∧ ¬ srFires c := by simpa only [fires, not_or] using h
  rw [e]
  change f = c.ifr
  rw [h₃.same hs, h₂.same h2, h₁.same h1]

end Controller

end Sys2Proof.Machine

namespace Sys2Proof

open Sys2Proof.Machine Sys2Proof.Claim

/-- Settles O26: Phase A in arithmetic, part by part, with the flags its three sources raise. -/
theorem phaseAIsOneSimultaneousUpdate : Obligations.PhaseAIsOneSimultaneousUpdate := by
  intro s
  refine ⟨s.c.phaseA.ifr, ?_, fun i hi => Controller.phaseA_flag s.c hi, Controller.phaseA_aggregated,
    fun h1 h2 hs => Controller.phaseA_ifr_of_not_fires (by simp only [fires, h1, h2, hs, or_self, not_false_eq_true])⟩
  rw [← Controller.phaseA_eq]
  rfl

end Sys2Proof
end

section
/-! Runs of Phase A after a timer or a shift-register access: what each counter, flag and line is after k of them
(70_reset_and_hazards.md section 3). -/

namespace Sys2Proof.Machine

open Sys2Proof.Claim

/-- A request, then Phase A alone: Phase A iterated on the Controller the request leaves. -/
theorem execAll_cons_times_pha {i : Instr} {s t : State} (h : exec i s = .next t) (k : Nat) :
    execAll (i :: times k .pha) s = .next (t.mapC Controller.phaseA^[k]) := by
  rw [execAll_cons_of_next h, execAll_times_pha]

namespace Controller

/-! ### What Phase A leaves of the Controller (41_controller_cycle.md R216) -/

@[simp] theorem phaseA_acr (c : Controller) : c.phaseA.acr = c.acr := by rw [phaseA_eq, Claim.phaseA]
@[simp] theorem phaseA_t1on (c : Controller) : c.phaseA.t1on = c.t1on := by rw [phaseA_eq, Claim.phaseA]
@[simp] theorem phaseA_t1ll (c : Controller) : c.phaseA.t1ll = c.t1ll := by rw [phaseA_eq, Claim.phaseA]
@[simp] theorem phaseA_t1lh (c : Controller) : c.phaseA.t1lh = c.t1lh := by rw [phaseA_eq, Claim.phaseA]
@[simp] theorem phaseA_t2on (c : Controller) : c.phaseA.t2on = c.t2on := by rw [phaseA_eq, Claim.phaseA]
@[simp] theorem phaseA_t2ll (c : Controller) : c.phaseA.t2ll = c.t2ll := by rw [phaseA_eq, Claim.phaseA]
@[simp] theorem phaseA_orb (c : Controller) : c.phaseA.orb = c.orb := by rw [phaseA_eq, Claim.phaseA]
@[simp] theorem phaseA_ca2 (c : Controller) : c.phaseA.ca2 = c.ca2 := by rw [phaseA_eq, Claim.phaseA]
@[simp] theorem phaseA_ier (c : Controller) : c.phaseA.ier = c.ier := by rw [phaseA_eq, Claim.phaseA]

/-! ### What Phase A gives each element it writes -/

theorem phaseA_t1c (c : Controller) : c.phaseA.t1c = if c.t1on = true then
    (if t1Wraps c ∧ t1Free c then pair c.t1lh c.t1ll else BitVec.ofNat 16 (c.t1c.toNat + 65535))
  else c.t1c := congrArg Controller.t1c (phaseA_eq c)

theorem phaseA_t1pb7 (c : Controller) : c.phaseA.t1pb7
    = if t1Wraps c ∧ t1Free c then !c.t1pb7 else if t1Fires c then true else c.t1pb7 :=
  congrArg Controller.t1pb7 (phaseA_eq c)

theorem phaseA_t1arm (c : Controller) : c.phaseA.t1arm = if t1Wraps c ∧ ¬ t1Free c then false else c.t1arm :=
  congrArg Controller.t1arm (phaseA_eq c)

theorem phaseA_t2c (c : Controller) :
    c.phaseA.t2c = if t2Counts c then BitVec.ofNat 16 (c.t2c.toNat + 65535) else c.t2c :=
  congrArg Controller.t2c (phaseA_eq c)

theorem phaseA_t2arm (c : Controller) : c.phaseA.t2arm = if t2Fires c then false else c.t2arm :=
  congrArg Controller.t2arm (phaseA_eq c)

theorem phaseA_srdiv (c : Controller) :
    c.phaseA.srdiv = if c.srdiv.toNat = 0 then c.t2ll else BitVec.ofNat 8 (c.srdiv.toNat - 1) :=
  congrArg Controller.srdiv (phaseA_eq c)

theorem phaseA_srph (c : Controller) : c.phaseA.srph = if c.srdiv.toNat = 0 then !c.srph else c.srph :=
  congrArg Controller.srph (phaseA_eq c)

theorem phaseA_sr (c : Controller) : c.phaseA.sr = if shifts c then
    BitVec.ofNat 8 (2 * c.sr.toNat + if 4 ≤ mode c ∧ 128 ≤ c.sr.toNat then 1 else 0) else c.sr :=
  congrArg Controller.sr (phaseA_eq c)

theorem phaseA_cb2s (c : Controller) :
    c.phaseA.cb2s = if shifts c ∧ 4 ≤ mode c then decide (128 ≤ c.sr.toNat) else c.cb2s :=
  congrArg Controller.cb2s (phaseA_eq c)

theorem phaseA_srcnt (c : Controller) : c.phaseA.srcnt = if counted c then c.srcnt + 1 else c.srcnt :=
  congrArg Controller.srcnt (phaseA_eq c)

/-- Flag 6 after Phase A (R201). -/
theorem phaseA_flag6 (c : Controller) : c.phaseA.ifr.getLsbD 6 = true ↔ c.ifr.getLsbD 6 = true ∨ t1Fires c := by
  rw [phaseA_flag c (by decide)]
  simp

/-- Flag 5 after Phase A (R202). -/
theorem phaseA_flag5 (c : Controller) : c.phaseA.ifr.getLsbD 5 = true ↔ c.ifr.getLsbD 5 = true ∨ t2Fires c := by
  rw [phaseA_flag c (by decide)]
  simp

/-- Flag 2 after Phase A (R213). -/
theorem phaseA_flag2 (c : Controller) : c.phaseA.ifr.getLsbD 2 = true ↔ c.ifr.getLsbD 2 = true ∨ srFires c := by
  rw [phaseA_flag c (by decide)]
  simp

/-! ### Timer 1 in one Phase A -/

/-- Short of an underflow timer 1 counts down and does nothing else (R201). -/
theorem phaseA_timer1_of_pos {c : Controller} (hon : c.t1on = true) (hpos : 0 < c.t1c.toNat) :
    c.phaseA.t1c.toNat = c.t1c.toNat - 1 ∧ c.phaseA.t1pb7 = c.t1pb7 ∧ c.phaseA.t1arm = c.t1arm
    ∧ c.phaseA.ifr.getLsbD 6 = c.ifr.getLsbD 6 := by
  have hw : ¬ t1Wraps c := fun h => by omega
  have hf : ¬ t1Fires c := fun h => hw h.1
  refine ⟨?_, ?_, ?_, ?_⟩
  · rw [phaseA_t1c, if_pos hon, if_neg fun h => hw h.1, BitVec.toNat_ofNat]
    omega
  · rw [phaseA_t1pb7, if_neg fun h => hw h.1, if_neg hf]
  · rw [phaseA_t1arm, if_neg fun h => hw h.1]
  · rw [Bool.eq_iff_iff, phaseA_flag6]
    simp only [hf, or_false]

/-- An underflow in free-run mode reloads the counter, flips the toggle and raises the flag (R201). -/
theorem phaseA_timer1_of_free {c : Controller} (hon : c.t1on = true) (hz : c.t1c.toNat = 0) (hfree : t1Free c) :
    c.phaseA.t1c.toNat = 256 * c.t1lh.toNat + c.t1ll.toNat ∧ c.phaseA.t1pb7 = !c.t1pb7
    ∧ c.phaseA.ifr.getLsbD 6 = true := by
  have hw : t1Wraps c ∧ t1Free c := ⟨⟨hon, hz⟩, hfree⟩
  refine ⟨?_, ?_, ?_⟩
  · rw [phaseA_t1c, if_pos hon, if_pos hw, pair_toNat]
  · rw [phaseA_t1pb7, if_pos hw]
  · rw [phaseA_flag6]
    exact .inr ⟨hw.1, .inl hfree⟩

/-- An underflow in one-shot mode leaves the counter at 0xFFFF and the timer disarmed; an armed timer raises its flag and
puts the toggle high (R201, 92_eei_decisions.md D12). -/
theorem phaseA_timer1_of_oneShot {c : Controller} (hon : c.t1on = true) (hz : c.t1c.toNat = 0) (hfree : ¬ t1Free c) :
    c.phaseA.t1c.toNat = 65535 ∧ c.phaseA.t1arm = false ∧ (c.phaseA.t1pb7 = true ↔ c.t1pb7 = true ∨ c.t1arm = true)
    ∧ (c.phaseA.ifr.getLsbD 6 = true ↔ c.ifr.getLsbD 6 = true ∨ c.t1arm = true) := by
  have hw : t1Wraps c := ⟨hon, hz⟩
  have hf : t1Fires c ↔ c.t1arm = true := ⟨fun h => h.2.resolve_left hfree, fun h => ⟨hw, .inr h⟩⟩
  refine ⟨?_, ?_, ?_, ?_⟩
  · rw [phaseA_t1c, if_pos hon, if_neg fun h => hfree h.2, BitVec.toNat_ofNat]
    omega
  · rw [phaseA_t1arm, if_pos ⟨hw, hfree⟩]
  · rw [phaseA_t1pb7, if_neg fun h => hfree h.2]
    simp only [hf]
    cases c.t1arm <;> simp
  · rw [phaseA_flag6, hf]

/-! ### Timer 1 in a run -/

/-- A one-shot timer 1, loaded with `n`, `k` Phase A after its start. -/
structure OneShot1 (n k : Nat) (c : Controller) : Prop where
  on : c.t1on = true
  oneShot : ¬ t1Free c
  before : k ≤ n → c.t1c.toNat = n - k ∧ c.ifr.getLsbD 6 = false ∧ c.t1pb7 = false ∧ c.t1arm = true
  after : n < k → (c.t1c.toNat + k) % 65536 = n ∧ c.ifr.getLsbD 6 = true ∧ c.t1pb7 = true ∧ c.t1arm = false

theorem OneShot1.phaseA {n k : Nat} {c : Controller} (hn : n < 65536) (h : OneShot1 n k c) : OneShot1 n (k + 1) c.phaseA := by
  obtain ⟨hon, hmode, hb, ha⟩ := h
  have hc := c.t1c.isLt
  refine ⟨by rw [phaseA_t1on, hon], by rwa [t1Free, phaseA_acr], fun hk => ?_, fun hk => ?_⟩
  · obtain ⟨hcnt, hflag, hpb7, harm⟩ := hb (by omega)
    obtain ⟨hcnt', hpb7', harm', hflag'⟩ := phaseA_timer1_of_pos hon (by omega)
    exact ⟨by omega, hflag'.trans hflag, hpb7'.trans hpb7, harm'.trans harm⟩
  · by_cases hz : c.t1c.toNat = 0
    · obtain ⟨hcnt', harm', hpb7', hflag'⟩ := phaseA_timer1_of_oneShot hon hz hmode
      by_cases hkn : k ≤ n
      · obtain ⟨hcnt, -, -, harm⟩ := hb hkn
        exact ⟨by omega, hflag'.2 (.inr harm), hpb7'.2 (.inr harm), harm'⟩
      · obtain ⟨hcnt, hflag, hpb7, -⟩ := ha (by omega)
        exact ⟨by omega, hflag'.2 (.inl hflag), hpb7'.2 (.inl hpb7), harm'⟩
    · obtain ⟨hcnt', hpb7', harm', hflag'⟩ := phaseA_timer1_of_pos hon (by omega)
      by_cases hkn : k ≤ n
      · obtain ⟨hcnt, -, -, -⟩ := hb hkn
        omega
      · obtain ⟨hcnt, hflag, hpb7, harm⟩ := ha (by omega)
        exact ⟨by omega, hflag'.trans hflag, hpb7'.trans hpb7, harm'.trans harm⟩

theorem OneShot1.iterate {n : Nat} {c : Controller} (hn : n < 65536) (h : OneShot1 n 0 c) (k : Nat) :
    OneShot1 n k (Controller.phaseA^[k] c) := by
  induction k with
  | zero => exact h
  | succ k ih =>
    rw [Function.iterate_succ_apply']
    exact ih.phaseA hn

/-- A free-running timer 1 with `n` in its latches, `j` Phase A after the m-th reload. -/
structure FreeRun1 (n m j : Nat) (c : Controller) : Prop where
  on : c.t1on = true
  free : t1Free c
  latch : 256 * c.t1lh.toNat + c.t1ll.toNat = n
  count : c.t1c.toNat = n - j
  toggle : c.t1pb7 = decide (m % 2 = 1)
  flag : c.ifr.getLsbD 6 = true ↔ 0 < m

theorem FreeRun1.phaseA {n m j : Nat} {c : Controller} (h : FreeRun1 n m j c) (hj : j < n) : FreeRun1 n m (j + 1) c.phaseA := by
  obtain ⟨hon, hmode, hlatch, hcnt, hpb7, hflag⟩ := h
  obtain ⟨hcnt', hpb7', -, hflag'⟩ := phaseA_timer1_of_pos hon (by omega)
  exact ⟨by rw [phaseA_t1on, hon], by rwa [t1Free, phaseA_acr], by rwa [phaseA_t1lh, phaseA_t1ll], by omega,
    hpb7'.trans hpb7, by rw [hflag', hflag]⟩

theorem FreeRun1.reload {n m : Nat} {c : Controller} (h : FreeRun1 n m n c) : FreeRun1 n (m + 1) 0 c.phaseA := by
  obtain ⟨hon, hmode, hlatch, hcnt, hpb7, hflag⟩ := h
  obtain ⟨hcnt', hpb7', hflag'⟩ := phaseA_timer1_of_free hon (by omega) hmode
  refine ⟨by rw [phaseA_t1on, hon], by rwa [t1Free, phaseA_acr], by rwa [phaseA_t1lh, phaseA_t1ll], by omega, ?_, ?_⟩
  · rw [hpb7', hpb7, ← decide_not]
    exact decide_eq_decide.2 (by omega)
  · simp [hflag']

theorem FreeRun1.iterate {n m : Nat} {c : Controller} (h : FreeRun1 n m 0 c) {j : Nat} (hj : j ≤ n) :
    FreeRun1 n m j (Controller.phaseA^[j] c) := by
  induction j with
  | zero => exact h
  | succ j ih =>
    rw [Function.iterate_succ_apply']
    exact (ih (by omega)).phaseA (by omega)

theorem FreeRun1.iterate_period {n m : Nat} {c : Controller} (h : FreeRun1 n m 0 c) :
    FreeRun1 n (m + 1) 0 (Controller.phaseA^[n + 1] c) := by
  rw [Function.iterate_succ_apply']
  exact (h.iterate le_rfl).reload

theorem FreeRun1.iterate_periods {n : Nat} {c : Controller} (h : FreeRun1 n 0 0 c) (m : Nat) :
    FreeRun1 n m 0 (Controller.phaseA^[m * (n + 1)] c) := by
  induction m with
  | zero => simpa using h
  | succ m ih =>
    rw [Nat.succ_mul, Nat.add_comm (m * (n + 1)), Function.iterate_add_apply]
    exact ih.iterate_period

/-- `CWR 5` starts a one-shot run of timer 1 (40_controller_bus.md R166). -/
theorem OneShot1.start {c : Controller} (d : Byte) (hmode : ¬ t1Free c) :
    OneShot1 (256 * d.toNat + c.t1ll.toNat) 0 (Controller.t1Start { c with t1lh := d }) := by
  obtain ⟨hdown, -, -⟩ := t1Start_flagFell c d
  refine ⟨rfl, hmode, fun _ => ⟨?_, hdown, rfl, rfl⟩, fun h => absurd h (Nat.not_lt_zero _)⟩
  rw [t1Start_eq]
  exact pair_toNat ..

/-- `CWR 5` starts a free run of timer 1 (40_controller_bus.md R166). -/
theorem FreeRun1.start {c : Controller} (d : Byte) (hmode : t1Free c) :
    FreeRun1 (256 * d.toNat + c.t1ll.toNat) 0 0 (Controller.t1Start { c with t1lh := d }) := by
  obtain ⟨hdown, -, -⟩ := t1Start_flagFell c d
  refine ⟨rfl, hmode, rfl, ?_, rfl, iff_of_false (Bool.eq_false_iff.1 hdown) (by decide)⟩
  rw [t1Start_eq]
  exact pair_toNat ..

/-! ### Timer 2 -/

/-- A timer 2 that pulse counting freezes keeps its counter and its flag (R202, 92_eei_decisions.md D41). -/
theorem phaseA_timer2_of_frozen {c : Controller} (h : ¬ t2Counts c) :
    c.phaseA.t2c = c.t2c ∧ c.phaseA.ifr.getLsbD 5 = c.ifr.getLsbD 5 := by
  constructor
  · rw [phaseA_t2c, if_neg h]
  · rw [Bool.eq_iff_iff, phaseA_flag5, or_iff_left fun hf => h hf.1]

/-- A counting timer 2 counts down; it raises its flag and is disarmed exactly if it underflows armed (R202). -/
theorem phaseA_timer2_of_counts {c : Controller} (h : t2Counts c) :
    c.phaseA.t2c.toNat = (c.t2c.toNat + 65535) % 65536
    ∧ c.phaseA.t2arm = (if c.t2c.toNat = 0 then false else c.t2arm)
    ∧ (c.phaseA.ifr.getLsbD 5 = true ↔ c.ifr.getLsbD 5 = true ∨ c.t2c.toNat = 0 ∧ c.t2arm = true) := by
  have hf : t2Fires c ↔ c.t2c.toNat = 0 ∧ c.t2arm = true := and_iff_right h
  refine ⟨?_, ?_, ?_⟩
  · rw [phaseA_t2c, if_pos h, BitVec.toNat_ofNat]
  · rw [phaseA_t2arm]
    simp only [hf]
    by_cases hz : c.t2c.toNat = 0 <;> cases c.t2arm <;> simp [hz]
  · rw [phaseA_flag5, hf]

/-- Timer 2, loaded with `n`, `k` Phase A after its start, in its counting mode. -/
structure Counting2 (n k : Nat) (c : Controller) : Prop where
  counts : t2Counts c
  before : k ≤ n → c.t2c.toNat = n - k ∧ c.ifr.getLsbD 5 = false ∧ c.t2arm = true
  after : n < k → c.ifr.getLsbD 5 = true ∧ c.t2arm = false ∧ (c.t2c.toNat + k) % 65536 = n

theorem Counting2.phaseA {n k : Nat} {c : Controller} (hn : n < 65536) (h : Counting2 n k c) : Counting2 n (k + 1) c.phaseA := by
  obtain ⟨hcounts, hb, ha⟩ := h
  obtain ⟨hcnt', harm', hflag'⟩ := phaseA_timer2_of_counts hcounts
  have hc := c.t2c.isLt
  refine ⟨by rwa [t2Counts, phaseA_t2on, phaseA_acr], fun hk => ?_, fun hk => ?_⟩
  · obtain ⟨hcnt, hflag, harm⟩ := hb (by omega)
    refine ⟨by omega, Bool.eq_false_iff.2 fun hup => ?_, ?_⟩
    · rcases hflag'.1 hup with hup | ⟨hz, -⟩
      · exact absurd (hflag.symm.trans hup) (by decide)
      · omega
    · rw [harm', if_neg (by omega), harm]
  · by_cases hkn : k ≤ n
    · obtain ⟨hcnt, -, harm⟩ := hb hkn
      have hz : c.t2c.toNat = 0 := by omega
      exact ⟨hflag'.2 (.inr ⟨hz, harm⟩), by rw [harm', if_pos hz], by omega⟩
    · obtain ⟨hflag, harm, hcnt⟩ := ha (by omega)
      refine ⟨hflag'.2 (.inl hflag), ?_, by omega⟩
      rw [harm', harm, ite_self]

theorem Counting2.iterate {n : Nat} {c : Controller} (hn : n < 65536) (h : Counting2 n 0 c) (k : Nat) :
    Counting2 n k (Controller.phaseA^[k] c) := by
  induction k with
  | zero => exact h
  | succ k ih =>
    rw [Function.iterate_succ_apply']
    exact ih.phaseA hn

/-- `CWR 9` starts timer 2 (40_controller_bus.md R170). -/
theorem Counting2.start {c : Controller} (d : Byte) (hmode : c.acr.toNat / 32 % 2 = 0) :
    Counting2 (256 * d.toNat + c.t2ll.toNat) 0 (c.t2Start d) := by
  obtain ⟨hdown, -, -⟩ := t2Start_flagFell c d
  refine ⟨⟨rfl, hmode⟩, fun _ => ⟨?_, hdown, rfl⟩, fun h => absurd h (Nat.not_lt_zero _)⟩
  rw [t2Start_eq]
  exact pair_toNat ..

/-- Frozen, timer 2 stays as it is through any number of Phase A. -/
theorem iterate_timer2_of_frozen {c : Controller} (h : ¬ t2Counts c) (k : Nat) :
    ¬ t2Counts (phaseA^[k] c) ∧ (phaseA^[k] c).t2c = c.t2c ∧ (phaseA^[k] c).ifr.getLsbD 5 = c.ifr.getLsbD 5 := by
  induction k with
  | zero => exact ⟨h, rfl, rfl⟩
  | succ k ih =>
    obtain ⟨hf, hcnt, hflag⟩ := ih
    obtain ⟨hcnt', hflag'⟩ := phaseA_timer2_of_frozen hf
    rw [Function.iterate_succ_apply']
    exact ⟨by rwa [t2Counts, phaseA_t2on, phaseA_acr], hcnt'.trans hcnt, hflag'.trans hflag⟩

end Controller

end Sys2Proof.Machine

namespace Sys2Proof

open Sys2Proof.Machine Sys2Proof.Claim Sys2Proof.Machine.Controller

theorem timerLoad_lt (high low : Byte) : 256 * high.toNat + low.toNat < 65536 := by
  omega

/-- Settles O28: in free-run mode by the free run up to its first reload, else by the one-shot run. -/
theorem timer1FlagRisesInPhaseANPlusOne : Obligations.Timer1FlagRisesInPhaseANPlusOne := by
  intro s d k
  have hn := timerLoad_lt d s.c.t1ll
  refine ⟨_, execAll_cons_times_pha (i := .cwr5 d) rfl k, ?_⟩
  by_cases hmode : t1Free s.c
  · have h := FreeRun1.start d hmode
    refine ⟨fun hk => ?_, fun hk => ?_, fun _ hm => absurd hmode hm⟩
    · obtain ⟨-, -, -, hcnt, hpb7, hflag⟩ := h.iterate hk
      exact ⟨hcnt, Bool.eq_false_iff.2 fun hf => absurd (hflag.1 hf) (Nat.lt_irrefl 0), hpb7⟩
    · obtain ⟨-, -, -, -, hpb7, hflag⟩ := h.iterate_period
      rw [hk]
      exact ⟨hflag.2 Nat.one_pos, hpb7⟩
  · have h := (OneShot1.start d hmode).iterate hn k
    refine ⟨fun hk => ?_, fun hk => ?_, fun hk _ => ?_⟩
    · obtain ⟨hcnt, hflag, hpb7, -⟩ := h.before hk
      exact ⟨hcnt, hflag, hpb7⟩
    · obtain ⟨-, hflag, hpb7, -⟩ := h.after (by omega)
      exact ⟨hflag, hpb7⟩
    · obtain ⟨hcnt, hflag, hpb7, harm⟩ := h.after hk
      exact ⟨hflag, hpb7, harm, hcnt⟩

/-- Settles O29: m periods of the free run. -/
theorem freeRunToggleFlipsOncePerPeriod : Obligations.FreeRunToggleFlipsOncePerPeriod := by
  intro s d m hmode
  obtain ⟨-, -, -, hcnt, hpb7, hflag⟩ := (FreeRun1.start d hmode).iterate_periods m
  exact ⟨_, execAll_cons_times_pha (i := .cwr5 d) rfl _, hcnt, hpb7, hflag⟩

/-- Settles O30: by the mode bit, the run frozen or counting. -/
theorem timer2FlagRisesOnceInPhaseANPlusOne : Obligations.Timer2FlagRisesOnceInPhaseANPlusOne := by
  intro s d k
  have hn := timerLoad_lt d s.c.t2ll
  refine ⟨_, execAll_cons_times_pha (i := .cwr9 d) rfl k, fun hpulse => ?_, fun hmode hk => ?_, fun hmode hk => ?_⟩
  · obtain ⟨hdown, -, -⟩ := t2Start_flagFell s.c d
    have hfrozen : ¬ t2Counts (s.c.t2Start d) := fun ⟨_, hm⟩ => by
      have hp : (s.c.t2Start d).acr.toNat / 32 % 2 = 1 := hpulse
      omega
    obtain ⟨-, hcnt, hflag⟩ := iterate_timer2_of_frozen hfrozen k
    refine ⟨?_, hflag.trans hdown⟩
    have hload : (s.c.t2Start d).t2c.toNat = 256 * d.toNat + s.c.t2ll.toNat := timerValue_toNat ..
    rw [← hload, ← hcnt]
    rfl
  · exact ((Counting2.start d hmode).iterate hn k).before hk
  · exact ((Counting2.start d hmode).iterate hn k).after hk

end Sys2Proof
end

section
/-! Runs of Phase A after a shift-register access: the every-cycle shift-out mode, and the two modes that shift at the divided
clock's pulses (41_controller_cycle.md R203 to R213, 70_reset_and_hazards.md R430). -/

namespace Sys2Proof.Machine

open Sys2Proof.Claim

/-! ### Rotating a byte -/

theorem rotateLeft_rotateLeft (x : Byte) (a b : Nat) : (x.rotateLeft a).rotateLeft b = x.rotateLeft (a + b) := by
  apply BitVec.eq_of_getMsbD_eq
  intro i hi
  have h8 : (b + i) % 8 < 8 := Nat.mod_lt _ (by decide)
  have hidx : (a + (b + i) % 8) % 8 = (a + b + i) % 8 := by omega
  simp only [BitVec.getMsbD_rotateLeft, hi, h8, decide_true, Bool.true_and, hidx]

theorem rotateLeft_zero (x : Byte) : x.rotateLeft 0 = x := by
  revert x
  decide

theorem rotateLeft_eight (x : Byte) : x.rotateLeft 8 = x := by
  rw [← BitVec.rotateLeft_mod_eq_rotateLeft, Nat.mod_self, rotateLeft_zero]

/-- The shift-out of one bit is a rotation. -/
theorem shiftedOut_eq_rotateLeft (b : Byte) :
    BitVec.ofNat 8 (2 * b.toNat + if 128 ≤ b.toNat then 1 else 0) = b.rotateLeft 1 := by
  revert b
  decide

/-- The bit that leaves a byte rotated `k` times is bit `7 - k`. -/
theorem topBit_rotateLeft (b : Byte) {k : Nat} (h : k < 8) : decide (128 ≤ (b.rotateLeft k).toNat) = b.getLsbD (7 - k) := by
  rw [← byte_bit7, BitVec.getLsbD_rotateLeft, Nat.mod_eq_of_lt h]
  simp [show ¬ 7 < k by omega]

namespace Controller

@[simp] theorem phaseA_mode (c : Controller) : mode c.phaseA = mode c := by rw [mode, phaseA_acr]

theorem iterate_phaseA_mode (c : Controller) (k : Nat) : mode (phaseA^[k] c) = mode c := by
  induction k with
  | zero => rfl
  | succ k ih => rw [Function.iterate_succ_apply', phaseA_mode, ih]

/-! ### One Phase A -/

/-- A shift-out that is counted rotates the register, sends its top bit and counts one (R210, R211). -/
theorem phaseA_shiftOut {c : Controller} (hs : shifts c) (hm : 5 ≤ mode c) :
    c.phaseA.sr = c.sr.rotateLeft 1 ∧ c.phaseA.cb2s = decide (128 ≤ c.sr.toNat) := by
  have h4 : 4 ≤ mode c := by omega
  have hbit : (4 ≤ mode c ∧ 128 ≤ c.sr.toNat) ↔ 128 ≤ c.sr.toNat := and_iff_right h4
  constructor
  · rw [phaseA_sr, if_pos hs]
    simp only [hbit]
    exact shiftedOut_eq_rotateLeft c.sr
  · rw [phaseA_cb2s, if_pos ⟨hs, h4⟩]

/-- A counted shift counts one, and the eighth raises the flag (R213). -/
theorem phaseA_counted {c : Controller} (hs : counted c) :
    c.phaseA.srcnt = c.srcnt + 1 ∧ (c.phaseA.ifr.getLsbD 2 = true ↔ c.ifr.getLsbD 2 = true ∨ c.srcnt = 7) := by
  rw [phaseA_srcnt, if_pos hs, phaseA_flag2]
  exact ⟨rfl, or_congr_right (and_iff_right hs)⟩

/-- Where nothing is shifted, the shift register, its count, its line and its flag stay. -/
theorem phaseA_of_not_shifts {c : Controller} (hs : ¬ shifts c) :
    c.phaseA.sr = c.sr ∧ c.phaseA.srcnt = c.srcnt ∧ c.phaseA.cb2s = c.cb2s
    ∧ c.phaseA.ifr.getLsbD 2 = c.ifr.getLsbD 2 := by
  have hc : ¬ counted c := fun h => hs h.1
  refine ⟨by rw [phaseA_sr, if_neg hs], by rw [phaseA_srcnt, if_neg hc],
    by rw [phaseA_cb2s, if_neg fun h => hs h.1], ?_⟩
  rw [Bool.eq_iff_iff, phaseA_flag2, or_iff_left fun h => hc h.1]

/-! ### The every-cycle shift-out mode -/

/-- `k` of the eight bits of `d` are out. -/
structure ShiftingOut (d : Byte) (k : Nat) (c : Controller) : Prop where
  mode : mode c = 6
  sr : c.sr = d.rotateLeft k
  srcnt : c.srcnt = k
  line : 0 < k → c.cb2s = d.getLsbD (8 - k)
  flag : c.ifr.getLsbD 2 = true ↔ k = 8

theorem ShiftingOut.phaseA {d : Byte} {k : Nat} {c : Controller} (h : ShiftingOut d k c) (hk : k < 8) :
    ShiftingOut d (k + 1) c.phaseA := by
  obtain ⟨hmode, hsr, hcnt, -, hflag⟩ := h
  have hs : shifts c := ⟨by omega, .inr (.inl hmode)⟩
  obtain ⟨hsr', hline'⟩ := phaseA_shiftOut hs (by omega)
  obtain ⟨hcnt', hflag'⟩ := phaseA_counted ⟨hs, by omega⟩
  refine ⟨by rwa [phaseA_mode], by rw [hsr', hsr, rotateLeft_rotateLeft], by rw [hcnt', hcnt], fun _ => ?_, ?_⟩
  · rw [hline', hsr, topBit_rotateLeft d hk, show 8 - (k + 1) = 7 - k by omega]
  · rw [hflag', hflag, hcnt]
    omega

theorem ShiftingOut.phaseA_done {d : Byte} {c : Controller} (h : ShiftingOut d 8 c) : ShiftingOut d 8 c.phaseA := by
  obtain ⟨hmode, hsr, hcnt, hline, hflag⟩ := h
  obtain ⟨hsr', hcnt', hline', hflag'⟩ := phaseA_of_not_shifts (c := c) fun hs => absurd hs.1 (by omega)
  exact ⟨by rwa [phaseA_mode], hsr'.trans hsr, hcnt'.trans hcnt, fun h8 => hline'.trans (hline h8), by rw [hflag', hflag]⟩

theorem ShiftingOut.iterate {d : Byte} {c : Controller} (h : ShiftingOut d 0 c) (k : Nat) :
    ShiftingOut d (min k 8) (Controller.phaseA^[k] c) := by
  induction k with
  | zero => exact h
  | succ k ih =>
    rw [Function.iterate_succ_apply']
    by_cases hk : k < 8
    · rw [min_eq_left (by omega)] at ih ⊢
      exact ih.phaseA hk
    · rw [min_eq_right (by omega)] at ih ⊢
      exact ih.phaseA_done

/-! ### The divided-clock modes -/

/-- The divider `k` Phase A after an access that found it at `d`, with reload value `l` and `q` pulses so far: still in its
first period, or `r` Phase A after the latest pulse. -/
def ShiftClock (d l k q : Nat) (c : Controller) : Prop :=
  c.t2ll.toNat = l ∧
    (k ≤ d ∧ q = 0 ∧ c.srdiv.toNat = d - k ∧ c.srph = true
    ∨ ∃ r p, r < 2 * (l + 1) ∧ q = p + 1 ∧ k = d + 1 + p * (2 * (l + 1)) + r
        ∧ (r ≤ l ∧ c.srdiv.toNat = l - r ∧ c.srph = false ∨ l < r ∧ c.srdiv.toNat = 2 * l + 1 - r ∧ c.srph = true))

theorem ShiftClock.pulsesBy_eq {d l k q : Nat} {c : Controller} (h : ShiftClock d l k q c) : pulsesBy d l k = q := by
  obtain ⟨-, ⟨hk, rfl, -⟩ | ⟨r, p, hr, rfl, rfl, -⟩⟩ := h
  · rw [pulsesBy, if_pos hk]
  · rw [pulsesBy, if_neg (by omega), show d + 1 + p * (2 * (l + 1)) + r - (d + 1) = r + p * (2 * (l + 1)) by omega,
      Nat.add_mul_div_right _ _ (by omega), Nat.div_eq_of_lt hr, Nat.zero_add]

/-- Off an underflow the divider counts down and keeps its phase; on one it reloads and turns its phase (R203). -/
theorem phaseA_divider (c : Controller) :
    (c.srdiv.toNat ≠ 0 → c.phaseA.srdiv.toNat = c.srdiv.toNat - 1 ∧ c.phaseA.srph = c.srph)
    ∧ (c.srdiv.toNat = 0 → c.phaseA.srdiv = c.t2ll ∧ c.phaseA.srph = !c.srph) := by
  rw [phaseA_srdiv, phaseA_srph]
  refine ⟨fun h => ?_, fun h => ?_⟩
  · rw [if_neg h, if_neg h, BitVec.toNat_ofNat]
    exact ⟨by omega, rfl⟩
  · rw [if_pos h, if_pos h]
    exact ⟨rfl, rfl⟩

/-- One Phase A adds a pulse exactly if the divider underflows with its phase 1. -/
theorem ShiftClock.phaseA {d l k q : Nat} {c : Controller} (h : ShiftClock d l k q c) :
    ShiftClock d l (k + 1) (if pulse c then q + 1 else q) c.phaseA := by
  obtain ⟨hl, h⟩ := h
  obtain ⟨hrun, hunder⟩ := phaseA_divider c
  refine ⟨by rwa [phaseA_t2ll], ?_⟩
  by_cases hz : c.srdiv.toNat = 0
  · obtain ⟨hdiv', hph'⟩ := hunder hz
    rcases h with ⟨hk, rfl, hdiv, hph⟩ | ⟨r, p, hr, rfl, rfl, ⟨hrl, hdiv, hph⟩ | ⟨hrl, hdiv, hph⟩⟩
    · rw [if_pos ⟨hz, hph⟩]
      exact .inr ⟨0, 0, by omega, rfl, by omega, .inl ⟨by omega, by rw [hdiv', hl]; rfl, by rw [hph', hph]; rfl⟩⟩
    · rw [if_neg fun hp => absurd (hph.symm.trans hp.2) (by decide)]
      exact .inr ⟨r + 1, p, by omega, rfl, by omega, .inr ⟨by omega, by rw [hdiv', hl]; omega, by rw [hph', hph]; rfl⟩⟩
    · rw [if_pos ⟨hz, hph⟩]
      exact .inr ⟨0, p + 1, by omega, rfl, by have := Nat.add_one_mul p (2 * (l + 1)); omega,
        .inl ⟨by omega, by rw [hdiv', hl]; rfl, by rw [hph', hph]; rfl⟩⟩
  · obtain ⟨hdiv', hph'⟩ := hrun hz
    rw [if_neg fun hp => hz hp.1]
    rcases h with ⟨hk, rfl, hdiv, hph⟩ | ⟨r, p, hr, rfl, rfl, ⟨hrl, hdiv, hph⟩ | ⟨hrl, hdiv, hph⟩⟩
    · exact .inl ⟨by omega, rfl, by omega, by rw [hph', hph]⟩
    · exact .inr ⟨r + 1, p, by omega, rfl, by omega, .inl ⟨by omega, by omega, by rw [hph', hph]⟩⟩
    · exact .inr ⟨r + 1, p, by omega, rfl, by omega, .inr ⟨by omega, by omega, by rw [hph', hph]⟩⟩

/-- The shift register after `q` pulses in a divided-clock mode: it has moved by that many bits, at most eight. -/
structure DividedShift (d : Byte) (q : Nat) (c : Controller) : Prop where
  mode : mode c = 1 ∨ mode c = 5
  srcnt : c.srcnt = min 8 q
  flag : c.ifr.getLsbD 2 = true ↔ 8 ≤ q
  sr : Claim.mode c = 5 → c.sr = d.rotateLeft (min 8 q)

theorem DividedShift.phaseA {d : Byte} {q : Nat} {c : Controller} (h : DividedShift d q c) :
    DividedShift d (if pulse c then q + 1 else q) c.phaseA := by
  obtain ⟨hmode, hcnt, hflag, hsr⟩ := h
  by_cases hp : pulse c
  · rw [if_pos hp]
    by_cases hq : q < 8
    · rw [min_eq_right (by omega)] at hcnt hsr
      have hs : shifts c := ⟨by omega, by tauto⟩
      obtain ⟨hcnt', hflag'⟩ := phaseA_counted ⟨hs, by omega⟩
      refine ⟨by rwa [phaseA_mode], by omega, by rw [hflag', hflag]; omega, fun h5 => ?_⟩
      rw [phaseA_mode] at h5
      rw [(phaseA_shiftOut hs (by omega)).1, hsr h5, rotateLeft_rotateLeft, min_eq_right (by omega)]
    · obtain ⟨hsr', hcnt', -, hflag'⟩ := phaseA_of_not_shifts (c := c) fun hs => absurd hs.1 (by omega)
      refine ⟨by rwa [phaseA_mode], by omega, by rw [hflag', hflag]; omega, fun h5 => ?_⟩
      rw [phaseA_mode] at h5
      rw [hsr', hsr h5, min_eq_left (by omega), min_eq_left (by omega)]
  · rw [if_neg hp]
    obtain ⟨hsr', hcnt', -, hflag'⟩ := phaseA_of_not_shifts (c := c) fun hs => by
      obtain ⟨-, h2 | h6 | ⟨-, h⟩⟩ := hs
      · omega
      · omega
      · exact hp h
    exact ⟨by rwa [phaseA_mode], hcnt'.trans hcnt, by rw [hflag', hflag],
      fun h5 => hsr'.trans (hsr (by rwa [← phaseA_mode]))⟩

/-- Clock and shifter together through a run: the pulses the clock gives are the bits the register moves by. -/
theorem iterate_dividedShift {d l : Nat} {b : Byte} {c : Controller} (hclock : ShiftClock d l 0 0 c) (h : DividedShift b 0 c)
    (k : Nat) : DividedShift b (pulsesBy d l k) (phaseA^[k] c) := by
  have hboth : ∃ q, ShiftClock d l k q (phaseA^[k] c) ∧ DividedShift b q (phaseA^[k] c) := by
    induction k with
    | zero => exact ⟨0, hclock, h⟩
    | succ k ih =>
      obtain ⟨q, hc, hs⟩ := ih
      rw [Function.iterate_succ_apply']
      exact ⟨_, hc.phaseA, hs.phaseA⟩
  obtain ⟨q, hc, hs⟩ := hboth
  rwa [hc.pulsesBy_eq]

end Controller

end Sys2Proof.Machine

namespace Sys2Proof

open Sys2Proof.Machine Sys2Proof.Claim Sys2Proof.Machine.Controller

/-- Settles O31: one more bit out by each Phase A until the eighth, and none after it. -/
theorem shiftOutSendsAByteInEightPhaseA : Obligations.ShiftOutSendsAByteInEightPhaseA := by
  intro s d k hmode
  obtain ⟨hdown, -, -⟩ := srAccess_flagFell { s.c with sr := d }
  have h0 : ShiftingOut d 0 (Controller.srAccess { s.c with sr := d }) :=
    ⟨hmode, (rotateLeft_zero d).symm, rfl, fun h => absurd h (by decide),
      iff_of_false (Bool.eq_false_iff.1 hdown) (by decide)⟩
  obtain ⟨-, hsr, hcnt, hline, hflag⟩ := h0.iterate k
  refine ⟨_, execAll_cons_times_pha (i := .cwrA d) rfl k, fun hk => ?_, fun hk => ?_⟩
  · rw [min_eq_left hk] at hsr hcnt hline hflag
    exact ⟨hsr, hcnt, hline, hflag⟩
  · rw [min_eq_right hk] at hsr hcnt hline hflag
    exact ⟨hsr.trans (rotateLeft_eight d), hcnt, hline (by decide), hflag.2 rfl⟩

/-- Settles O32: the clock's pulses counted, and the register moved by one bit at each of the first eight. -/
theorem shiftPulsesComeAtTheDividedClock : Obligations.ShiftPulsesComeAtTheDividedClock := by
  intro s d k hmode
  obtain ⟨hdown, -, -⟩ := srAccess_flagFell { s.c with sr := d }
  have hclock : ShiftClock s.c.srdiv.toNat s.c.t2ll.toNat 0 0 (Controller.srAccess { s.c with sr := d }) :=
    ⟨rfl, .inl ⟨Nat.zero_le _, rfl, rfl, rfl⟩⟩
  have hshift : DividedShift d 0 (Controller.srAccess { s.c with sr := d }) :=
    ⟨hmode, rfl, iff_of_false (Bool.eq_false_iff.1 hdown) (by decide), fun _ => (rotateLeft_zero d).symm⟩
  obtain ⟨-, hcnt, hflag, hsr⟩ := iterate_dividedShift hclock hshift k
  refine ⟨_, execAll_cons_times_pha (i := .cwrA d) rfl k, hcnt, hflag, fun h5 => hsr ?_⟩
  rwa [iterate_phaseA_mode]

end Sys2Proof
end

section
/-! The interrupt flags and enables over every request: which requests clear flags, that only Phase A raises them, and that the
aggregate follows (60_exceptions.md section 2, 10_state.md R32). -/

namespace Sys2Proof.Machine

open Sys2Proof.Claim

/-! ### Runs of cycles -/

theorem cycle_c {s t : State} (h : cycle s = .next t) : t.c = s.c.phaseA.phaseB := by
  obtain ⟨-, rfl⟩ := cycle_eq_next.1 h
  simp

theorem frameAccount_c (n : Byte) (s : State) : (s.frameAccount n).c = s.c := by
  rcases frameAccount_cases n s with ⟨-, e⟩ | ⟨-, e⟩ <;> rw [e]

/-- Requests for cycles alone run as many cycles. -/
theorem execAll_times_cyc (n : Nat) (s : State) : execAll (times n .cyc) s = cycles n s := by
  induction n generalizing s with
  | zero => rfl
  | succ n ih => exact congrArg (andThen (cycle s)) (funext ih)

theorem cycles_add (m n : Nat) (s : State) : cycles (m + n) s = andThen (cycles m s) (cycles n) := by
  induction m generalizing s with
  | zero => rw [Nat.zero_add, cycles, andThen_next]
  | succ m ih =>
    rw [Nat.succ_add, cycles, cycles]
    cases cycle s with
    | next u => exact ih u
    | fault e => rfl
    | refused e => rfl

/-! ### What Phase A does to the flags, once or in a run -/

/-- From `c` to `d` flags only rise, only flags 6, 5 and 2 do, the enables stay, and a change leaves the aggregate recomputed
(60_exceptions.md R393, R394). -/
structure FlagsRise (c d : Controller) : Prop where
  enables : d.ier = c.ier
  kept : ∀ k, k < 7 → c.ifr.getLsbD k = true → d.ifr.getLsbD k = true
  source : ∀ k, k < 7 → c.ifr.getLsbD k = false → d.ifr.getLsbD k = true → k = 6 ∨ k = 5 ∨ k = 2
  aggregate : d.ifr ≠ c.ifr → aggregated d.ifr d.ier

namespace FlagsRise

theorem refl (c : Controller) : FlagsRise c c :=
  ⟨rfl, fun _ _ h => h, fun _ _ h h' => absurd (h.symm.trans h') (by decide), fun h => absurd rfl h⟩

theorem trans {c d e : Controller} (h : FlagsRise c d) (h' : FlagsRise d e) : FlagsRise c e := by
  refine ⟨h'.enables.trans h.enables, fun k hk hc => h'.kept k hk (h.kept k hk hc), fun k hk hc he => ?_, fun hne => ?_⟩
  · cases hd : d.ifr.getLsbD k with
    | false => exact h'.source k hk hd he
    | true => exact h.source k hk hc hd
  · by_cases hde : e.ifr = d.ifr
    · rw [h'.enables, hde]
      exact h.aggregate fun hdc => hne (hde.trans hdc)
    · exact h'.aggregate hde

/-- An aggregate that is right stays right. -/
theorem aggregated {c d : Controller} (h : FlagsRise c d) (hc : aggregated c.ifr c.ier) : aggregated d.ifr d.ier := by
  by_cases hd : d.ifr = c.ifr
  · rwa [h.enables, hd]
  · exact h.aggregate hd

theorem of_phaseA (c : Controller) : FlagsRise c c.phaseA := by
  refine ⟨Controller.phaseA_ier c, fun k hk h => (Controller.phaseA_flag c hk).2 (.inl h), fun k hk h h' => ?_, fun hne => ?_⟩
  · rcases (Controller.phaseA_flag c hk).1 h' with hup | ⟨h6, -⟩ | ⟨h5, -⟩ | ⟨h2, -⟩
    · exact absurd (h.symm.trans hup) (by decide)
    · exact .inl h6
    · exact .inr (.inl h5)
    · exact .inr (.inr h2)
  · rw [Controller.phaseA_ier]
    exact Controller.phaseA_aggregated (not_not.1 fun hf => hne (Controller.phaseA_ifr_of_not_fires hf))

theorem of_cycle {s t : State} (h : cycle s = .next t) : FlagsRise s.c t.c := by
  obtain ⟨henables, hkept, hsource, haggregate⟩ := of_phaseA s.c
  rw [cycle_c h]
  exact ⟨henables, hkept, hsource, haggregate⟩

theorem of_cycles {n : Nat} {s t : State} (h : cycles n s = .next t) : FlagsRise s.c t.c :=
  cycles_induction (P := fun u => FlagsRise s.c u.c) (fun _ _ hu hc => hu.trans (of_cycle hc)) (refl s.c) h

end FlagsRise

/-! ### The requests that clear flags -/

/-- The flags a request clears, where it is one that clears any (60_exceptions.md R396). -/
def clearedBy (p : Params) : Instr → Option Byte
  | .cwrD d => some (d &&& 0x7F#8)
  | .crd4 => some flagT1
  | .cwr5 _ => some flagT1
  | .cwr7 _ => if p.t1LatchHiWriteStarts then some flagT1 else none
  | .crd8 => some flagT2
  | .cwr9 _ => some flagT2
  | .crdA => some flagSR
  | .cwrA _ => some flagSR
  | _ => none

/-- Every request clears the flags `clearedBy` names, writes the enables, resets, runs Phase A, or leaves flags and enables. -/
theorem exec_flags_cases {i : Instr} {s t : State} (h : exec i s = .next t) :
    (∃ m, clearedBy s.cfg i = some m ∧ t.c.ifr = (clearFlags m s.c).ifr ∧ t.c.ier = s.c.ier)
    ∨ (∃ d, i = .cwrE d ∧ t.c.ifr = (writeEnables d s.c).ifr ∧ t.c.ier = (writeEnables d s.c).ier)
    ∨ (i = .reset ∧ t.c = Controller.atReset)
    ∨ ((i = .pha ∨ i = .cyc ∨ ∃ n, i = .iend n) ∧ FlagsRise s.c t.c)
    ∨ (clearedBy s.cfg i = none ∧ i ≠ .reset ∧ t.c.ifr = s.c.ifr ∧ t.c.ier = s.c.ier) := by
  cases i with
  | cwrD d | crd4 | cwr5 d | crd8 | cwr9 d | crdA | cwrA d =>
    obtain rfl := Host.Outcome.next.inj h
    exact .inl ⟨_, rfl, rfl, rfl⟩
  | cwr7 d =>
    obtain rfl := Host.Outcome.next.inj h
    simp only [clearedBy, State.mapC_c, Controller.writeT1LatchHigh]
    split
    · exact .inl ⟨_, rfl, rfl, rfl⟩
    · exact .inr (.inr (.inr (.inr ⟨rfl, nofun, rfl, rfl⟩)))
  | cwrE d =>
    obtain rfl := Host.Outcome.next.inj h
    exact .inr (.inl ⟨d, rfl, rfl, rfl⟩)
  | reset =>
    obtain rfl := Host.Outcome.next.inj h
    exact .inr (.inr (.inl ⟨rfl, rfl⟩))
  | pha =>
    obtain rfl := Host.Outcome.next.inj h
    exact .inr (.inr (.inr (.inl ⟨.inl rfl, .of_phaseA s.c⟩)))
  | cyc => exact .inr (.inr (.inr (.inl ⟨.inr (.inl rfl), .of_cycle h⟩)))
  | iend n =>
    obtain ⟨u, hu, rfl⟩ := exec_iend_eq_next.1 h
    rw [frameAccount_c]
    exact .inr (.inr (.inr (.inl ⟨.inr (.inr ⟨n, rfl⟩), .of_cycles hu⟩)))
  | beam =>
    obtain ⟨-, rfl⟩ := beamStep_eq_next.1 h
    rw [beamAdvance_c]
    exact .inr (.inr (.inr (.inr ⟨rfl, nofun, rfl, rfl⟩)))
  | crd1 =>
    obtain rfl := Host.Outcome.next.inj h
    rw [State.give_c, State.mapC_c, Controller.line1Access_eq]
    exact .inr (.inr (.inr (.inr ⟨rfl, nofun, rfl, rfl⟩)))
  | cwr0 d =>
    rw [exec_cwr0] at h
    obtain rfl := Host.Outcome.next.inj h
    exact .inr (.inr (.inr (.inr ⟨rfl, nofun, rfl, rfl⟩)))
  | cwr1 d =>
    rw [exec_cwr1] at h
    obtain rfl := Host.Outcome.next.inj h
    exact .inr (.inr (.inr (.inr ⟨rfl, nofun, rfl, rfl⟩)))
  | cwrF d =>
    rw [exec_cwrF] at h
    obtain rfl := Host.Outcome.next.inj h
    obtain ⟨-, hc, -⟩ := protocol_frame { s with c := { s.c with ora := d } }
    rw [hc]
    exact .inr (.inr (.inr (.inr ⟨rfl, nofun, rfl, rfl⟩)))
  | _ =>
    obtain rfl := Host.Outcome.next.inj h
    exact .inr (.inr (.inr (.inr ⟨rfl, nofun, rfl, rfl⟩)))

/-- The requests of 60_exceptions.md R396 that clear flag `k`, reset aside. -/
theorem clearedBy_flag {p : Params} {i : Instr} {k : Nat} (hk : k < 7) :
    (∃ m, clearedBy p i = some m ∧ m.getLsbD k = true) ↔
      (∃ d : Byte, i = .cwrD d ∧ d.getLsbD k = true)
      ∨ (k = 6 ∧ (i = .crd4 ∨ ∃ d, i = .cwr5 d ∨ (i = .cwr7 d ∧ p.t1LatchHiWriteStarts = true)))
      ∨ (k = 5 ∧ (i = .crd8 ∨ ∃ d, i = .cwr9 d))
      ∨ (k = 2 ∧ (i = .crdA ∨ ∃ d, i = .cwrA d)) := by
  cases i with
  | cwrD d => simp [clearedBy, flagMask_flag d hk, -BitVec.getLsbD_and]
  | crd4 | cwr5 d => simp [clearedBy, flagT1_bit k hk]
  | crd8 | cwr9 d => simp [clearedBy, flagT2_bit k hk]
  | crdA | cwrA d => simp [clearedBy, flagSR_bit k hk]
  | cwr7 d => cases hp : p.t1LatchHiWriteStarts <;> simp [clearedBy, hp, flagT1_bit k hk]
  | _ => simp [clearedBy]

theorem clearedBy_of_phaseA {p : Params} {i : Instr} (h : i = .pha ∨ i = .cyc ∨ ∃ n, i = .iend n) :
    clearedBy p i = none ∧ i ≠ .reset := by
  rcases h with rfl | rfl | ⟨n, rfl⟩ <;> exact ⟨rfl, nofun⟩

theorem atReset_flag (k : Nat) : Controller.atReset.ifr.getLsbD k = false := BitVec.getLsbD_zero

/-- A raised flag falls exactly in a request that clears it, and in reset. -/
theorem exec_flag_falls_iff {i : Instr} {s t : State} {k : Nat} (hk : k < 7) (hup : s.c.ifr.getLsbD k = true)
    (h : exec i s = .next t) :
    t.c.ifr.getLsbD k = false ↔ (∃ m, clearedBy s.cfg i = some m ∧ m.getLsbD k = true) ∨ i = .reset := by
  rcases exec_flags_cases h with ⟨m, hm, hf, -⟩ | ⟨d, rfl, hf, -⟩ | ⟨rfl, hc⟩ | ⟨hi, hr⟩ | ⟨hn, hi, hf, -⟩
  · have hi : i ≠ .reset := by
      rintro rfl
      cases hm
    rw [hf, clearFlags_flag m s.c hk, hup]
    simp [hm, hi]
  · rw [hf, writeEnables_flag d s.c hk, hup]
    simp [clearedBy]
  · rw [hc, atReset_flag]
    simp
  · obtain ⟨hn, hi⟩ := clearedBy_of_phaseA (p := s.cfg) hi
    rw [hr.kept k hk hup]
    simp [hn, hi]
  · rw [hf, hup]
    simp [hn, hi]

/-- A change of a flag or an enable leaves the aggregate recomputed. -/
theorem exec_aggregated_of_change {i : Instr} {s t : State} (h : exec i s = .next t)
    (hne : t.c.ifr ≠ s.c.ifr ∨ t.c.ier ≠ s.c.ier) : aggregated t.c.ifr t.c.ier := by
  rcases exec_flags_cases h with ⟨m, -, hf, he⟩ | ⟨d, -, hf, he⟩ | ⟨-, hc⟩ | ⟨-, hr⟩ | ⟨-, -, hf, he⟩
  · rw [hf, he]
    exact clearFlags_aggregated m s.c
  · rw [hf, he]
    exact writeEnables_aggregated d s.c
  · rw [hc, aggregated]
    exact irqAggregate_iff 0#8 0#7
  · exact hr.aggregate (hne.resolve_right (not_not.2 hr.enables))
  · exact absurd hne (not_or.2 ⟨not_not.2 hf, not_not.2 he⟩)

/-- A cycle in which a source fires recomputes the aggregate. -/
theorem cycle_aggregated {s t : State} (hf : fires s.c) (h : cycle s = .next t) : aggregated t.c.ifr t.c.ier := by
  have hA := Controller.phaseA_aggregated hf
  rw [← Controller.phaseA_ier] at hA
  rw [cycle_c h]
  exact hA

end Sys2Proof.Machine

namespace Sys2Proof

open Sys2Proof.Machine Sys2Proof.Claim

/-- Settles O24: the requests listed are those whose mask names the flag, and reset. -/
theorem flagsFallOnlyByTheListedRequests : Obligations.FlagsFallOnlyByTheListedRequests := by
  intro i s t k hk hup h
  rw [exec_flag_falls_iff hk hup h, clearedBy_flag hk]
  simp only [or_assoc]

/-- Settles O25: of the kinds of requests only a run of Phase A raises a flag, and only the write at 0xE and reset write
the enables. -/
theorem flagsRiseOnlyInPhaseAAndEnablesOnlyByWrite : Obligations.FlagsRiseOnlyInPhaseAAndEnablesOnlyByWrite := by
  intro i s t h
  rcases exec_flags_cases h with ⟨m, -, hf, he⟩ | ⟨d, rfl, hf, -⟩ | ⟨rfl, hc⟩ | ⟨hi, hr⟩ | ⟨-, -, hf, he⟩
  · refine ⟨fun k hk hdown hup => ?_, fun hne => absurd he hne⟩
    rw [hf, clearFlags_flag m s.c hk, hdown] at hup
    cases hup
  · refine ⟨fun k hk hdown hup => ?_, fun _ => .inl ⟨d, rfl⟩⟩
    rw [hf, writeEnables_flag d s.c hk] at hup
    exact absurd (hdown.symm.trans hup) (by decide)
  · refine ⟨fun k _ _ hup => ?_, fun _ => .inr rfl⟩
    rw [hc, atReset_flag] at hup
    cases hup
  · exact ⟨fun k hk hdown hup => ⟨hr.source k hk hdown hup, hi⟩, fun hne => absurd hr.enables hne⟩
  · refine ⟨fun k _ hdown hup => ?_, fun hne => absurd he hne⟩
    rw [hf] at hup
    exact absurd (hdown.symm.trans hup) (by decide)

/-- Settles O23: a change by the kinds of requests; the writes that change nothing by the flag operations' own laws; and
once a cycle has recomputed the aggregate, the cycles after it keep it right. -/
theorem aggregateFollowsEveryFlagOrEnableChange : Obligations.AggregateFollowsEveryFlagOrEnableChange := by
  refine ⟨fun i s t h hne => exec_aggregated_of_change h hne, fun i s hi => ?_, fun s t hf h => cycle_aggregated hf h,
    fun s t u n k hk hu hf h => ?_⟩
  · rcases hi with rfl | rfl | rfl | ⟨d, rfl | rfl | rfl | rfl | rfl⟩ | ⟨hp, d, rfl⟩ | ⟨rfl, hf⟩
    · exact ⟨_, rfl, clearFlags_aggregated flagT1 { s.c with t1on := false, t1arm := false, t1pb7 := true }⟩
    · exact ⟨_, rfl, clearFlags_aggregated flagT2 { s.c with t2on := false, t2arm := false }⟩
    · exact ⟨_, rfl, clearFlags_aggregated flagSR { s.c with srcnt := 0, srph := true }⟩
    · obtain ⟨-, -, hagg⟩ := t1Start_flagFell s.c d
      exact ⟨_, rfl, hagg⟩
    · obtain ⟨-, -, hagg⟩ := t2Start_flagFell s.c d
      exact ⟨_, rfl, hagg⟩
    · obtain ⟨-, -, hagg⟩ := srAccess_flagFell { s.c with sr := d }
      exact ⟨_, rfl, hagg⟩
    · exact ⟨_, exec_cwrD d s, clearFlags_aggregated _ s.c⟩
    · exact ⟨_, exec_cwrE d s, writeEnables_aggregated d s.c⟩
    · obtain ⟨-, -, hagg⟩ := t1Start_flagFell s.c d
      refine ⟨_, rfl, ?_⟩
      rw [State.mapC_c, Controller.writeT1LatchHigh, if_pos hp]
      exact hagg
    · refine ⟨_, rfl, ?_⟩
      rw [State.mapC_c, Controller.phaseA_ier]
      exact Controller.phaseA_aggregated hf
  · rw [execAll_times_cyc] at hu
    obtain ⟨v, hv, rfl⟩ := exec_iend_eq_next.1 h
    obtain ⟨j, hj⟩ : ∃ j, n.toNat = k + (j + 1) := ⟨n.toNat - (k + 1), by omega⟩
    rw [hj, cycles_add, hu, andThen_next] at hv
    obtain ⟨w, hw, hv⟩ := cycles_succ_eq_next.1 hv
    rw [frameAccount_c]
    exact (FlagsRise.of_cycles hv).aggregated (cycle_aggregated hf hw)

end Sys2Proof
end

section
/-! The Beam Engine step in arithmetic and by the cases of its tracing, the cycle and the instruction end, and the outcome of
every request (44_beam_engine.md, 45_scheduler.md). -/

namespace Sys2Proof.Machine

open Sys2Proof.Claim

/-! ### Outcomes -/

/-- A result that is a next state, or the fault at the position limit (60_exceptions.md R392). -/
def CompletesOrFaults (r : Res) : Prop := (∃ t, r = .next t) ∨ r = .fault .beamPositionBeyondPosLimit

theorem beamStep_completesOrFaults (s : State) : CompletesOrFaults (beamStep s) := by
  unfold beamStep
  split
  · exact .inr rfl
  · exact .inl ⟨_, rfl⟩

theorem andThen_completesOrFaults {r : Res} {f : State → Res} (hr : CompletesOrFaults r) (hf : ∀ t, CompletesOrFaults (f t)) :
    CompletesOrFaults (andThen r f) := by
  rcases hr with ⟨t, rfl⟩ | rfl
  · exact hf t
  · exact .inr rfl

theorem cycle_completesOrFaults (s : State) : CompletesOrFaults (cycle s) :=
  andThen_completesOrFaults (beamStep_completesOrFaults _) fun _ => .inl ⟨_, rfl⟩

theorem cycles_completesOrFaults (n : Nat) (s : State) : CompletesOrFaults (cycles n s) := by
  induction n generalizing s with
  | zero => exact .inl ⟨s, rfl⟩
  | succ n ih => exact andThen_completesOrFaults (cycle_completesOrFaults s) ih

/-! ### The step's signals in arithmetic -/

theorem ramp_eq_rampSignal (c : Controller) : c.ramp = rampSignal c := by
  have hacr : acrPb7En c.acr = true ↔ c.acr.toNat / 128 = 1 := by
    rw [acrPb7En, getLsbD_eq_decide, decide_eq_true_eq]
    omega
  have horb : c.orb.getLsbD 7 = decide (c.orb.toNat / 128 = 1) := by
    rw [getLsbD_eq_decide]
    exact decide_eq_decide.2 (by omega)
  simp only [Controller.ramp, rampSignal, hacr, horb]

theorem blankSignal_eq_beamOn (c : Controller) : c.blankSignal = beamOn c := by
  simp only [Controller.blankSignal, beamOn, acrBlankSel, getLsbD_eq_decide, decide_eq_true_eq]
  rfl

/-- The velocity of a step, from the state before it (44_beam_engine.md R326, R328). -/
theorem velocity_eq (p : Params) (c : Controller) (b : Beam) :
    Beam.velocity p c (sampled c.orb b) = Claim.velocity p c b := by
  simp only [Beam.velocity, Claim.velocity, ramp_eq_rampSignal, Bool.not_eq_true']
  rfl

theorem inBounds_iff (p : Params) (x y : Int) : inBounds p x y = true ↔ inside p x y := decide_eq_true_iff

theorem beyondLimit_eq_false (p : Params) (b : Beam) :
    b.beyondLimit p = false ↔ b.x.natAbs < p.posLimit ∧ b.y.natAbs < p.posLimit := by
  rw [Beam.beyondLimit, decide_eq_false_iff_not]
  omega

/-! ### The step -/

/-- The tracing state after a step's tracing rules, with the record emitted (44_beam_engine.md R329 to R331). -/
abbrev traced (s : State) : Beam × Option VecRec :=
  (sampled s.c.orb s.b).traceFsm s.cfg (beamOn s.c) (Claim.velocity s.cfg s.c s.b)

theorem advance_eq (s : State) : s.b.advance s.cfg s.c
    = (((traced s).1.integrate (Claim.velocity s.cfg s.c s.b)).extend s.cfg, (traced s).2) := by
  simp only [Beam.advance, sampleUpdate_eq_sampled, velocity_eq, blankSignal_eq_beamOn, traced]

/-- Where the step integrates to (44_beam_engine.md R332). -/
theorem advance_position_eq (s : State) :
    (s.b.advance s.cfg s.c).1.x = s.b.x + (Claim.velocity s.cfg s.c s.b).1
    ∧ (s.b.advance s.cfg s.c).1.y = s.b.y + (Claim.velocity s.cfg s.c s.b).2 := by
  have h := Beam.advance_position s.cfg s.c s.b
  rwa [sampleUpdate_eq_sampled, velocity_eq] at h

/-- `b'` has the samples of `b`, the axes, and what is derived from them. -/
structure SameSamples (b b' : Beam) : Prop where
  rsh : b'.rsh = b.rsh
  xsh : b'.xsh = b.xsh
  ysh : b'.ysh = b.ysh
  zsh : b'.zsh = b.zsh
  j : b'.j = b.j
  jsh : b'.jsh = b.jsh
  cmp : b'.cmp = b.cmp
  dx : b'.dx = b.dx
  dy : b'.dy = b.dy

theorem SameSamples.eq {b b' : Beam} (h : SameSamples b b') : b' = { b with
    x := b'.x, y := b'.y, tr := b'.tr, x0 := b'.x0, y0 := b'.y0, x1 := b'.x1, y1 := b'.y1
    vdx := b'.vdx, vdy := b'.vdy, vi := b'.vi } := by
  obtain ⟨hr, hx, hy, hz, hj, hjs, hc, hdx, hdy⟩ := h
  rw [← hr, ← hx, ← hy, ← hz, ← hj, ← hjs, ← hc, ← hdx, ← hdy]

/-- Tracing, integration and extension leave the samples: they are those of the sample update. -/
theorem advance_sameSamples (s : State) : SameSamples (sampled s.c.orb s.b) (s.b.advance s.cfg s.c).1 := by
  obtain ⟨-, -, hz, hx, hr, hy, hjs, hj, hc, hdx, hdy⟩ :=
    Beam.traceFsm_frame s.cfg (beamOn s.c) (Claim.velocity s.cfg s.c s.b) (sampled s.c.orb s.b)
  rw [advance_eq]
  rcases Beam.extend_cases s.cfg ((traced s).1.integrate (Claim.velocity s.cfg s.c s.b)) with e | ⟨-, -, e⟩ <;> rw [e] <;>
    exact ⟨hr, hx, hy, hz, hj, hjs, hc, hdx, hdy⟩

/-- A step that completes: the position is inside the limit, and the state is the advanced one with its record emitted. -/
theorem exec_beam_eq_next {s t : State} : exec .beam s = .next t ↔
    ((s.b.advance s.cfg s.c).1.x.natAbs < s.cfg.posLimit ∧ (s.b.advance s.cfg s.c).1.y.natAbs < s.cfg.posLimit)
    ∧ t = { s with
        b := (s.b.advance s.cfg s.c).1
        g := { s.g with vec := s.g.vec ++ (s.b.advance s.cfg s.c).2.toList }
        out := s.out ++ (s.b.advance s.cfg s.c).2.toList.map Output.line } := by
  have hadv : s.beamAdvance = { s with
      b := (s.b.advance s.cfg s.c).1
      g := { s.g with vec := s.g.vec ++ (s.b.advance s.cfg s.c).2.toList }
      out := s.out ++ (s.b.advance s.cfg s.c).2.toList.map Output.line } := by
    rcases beamAdvance_cases s with ⟨ho, e⟩ | ⟨v, ho, e⟩ <;> rw [e, ho] <;> simp
  rw [← hadv, ← beyondLimit_eq_false, ← beamAdvance_b]
  exact beamStep_eq_next

/-- A completed step by what its tracing rules give. -/
theorem exec_beam_traced {s t : State} {b : Beam} {o : Option VecRec} (h : exec .beam s = .next t) (ht : traced s = (b, o)) :
    t.b = (b.integrate (Claim.velocity s.cfg s.c s.b)).extend s.cfg
    ∧ t.g.vec = s.g.vec ++ o.toList ∧ t.out = s.out ++ o.toList.map Output.line := by
  obtain ⟨-, rfl⟩ := exec_beam_eq_next.1 h
  simp only [advance_eq, ht, and_self]

/-! ### The tracing rules one by one (44_beam_engine.md R329 to R331) -/

section

variable {p : Params} {on : Bool} {v : Int × Int} {b : Beam}

theorem traceFsm_start (ht : b.tr = false) (ho : on = true) (hi : inside p b.x b.y) :
    b.traceFsm p on v = (b.startVector v, none) := by
  simp [Beam.traceFsm, ht, ho, (inBounds_iff ..).2 hi]

theorem traceFsm_idle (ht : b.tr = false) (h : on = false ∨ ¬ inside p b.x b.y) : b.traceFsm p on v = (b, none) := by
  have hoff : (on && inBounds p b.x b.y) = false := by
    rcases h with ho | hi
    · rw [ho, Bool.false_and]
    · rw [Bool.eq_false_iff.2 (mt (inBounds_iff ..).1 hi), Bool.and_false]
  simp [Beam.traceFsm, ht, hoff]

theorem traceFsm_end (ht : b.tr = true) (ho : on = false) : b.traceFsm p on v = ({ b with tr := false }, some b.record) := by
  simp [Beam.traceFsm, ht, ho]

theorem changed_iff : b.changed v = true ↔ v.1 ≠ b.vdx ∨ v.2 ≠ b.vdy ∨ b.zsh ≠ b.vi := by
  simp [Beam.changed, or_assoc]

theorem traceFsm_restart (ht : b.tr = true) (ho : on = true) (hc : v.1 ≠ b.vdx ∨ v.2 ≠ b.vdy ∨ b.zsh ≠ b.vi)
    (hi : inside p b.x b.y) : b.traceFsm p on v = (b.startVector v, some b.record) := by
  simp [Beam.traceFsm, ht, ho, changed_iff.2 hc, (inBounds_iff ..).2 hi]

theorem traceFsm_stop (ht : b.tr = true) (ho : on = true) (hc : v.1 ≠ b.vdx ∨ v.2 ≠ b.vdy ∨ b.zsh ≠ b.vi)
    (hi : ¬ inside p b.x b.y) : b.traceFsm p on v = ({ b with tr := false }, some b.record) := by
  simp [Beam.traceFsm, ht, ho, changed_iff.2 hc, mt (inBounds_iff ..).1 hi]

theorem traceFsm_continue (ht : b.tr = true) (ho : on = true) (hc : ¬ (v.1 ≠ b.vdx ∨ v.2 ≠ b.vdy ∨ b.zsh ≠ b.vi)) :
    b.traceFsm p on v = (b, none) := by
  simp [Beam.traceFsm, ht, ho, mt changed_iff.1 hc]

/-- Off, the beam is integrated and nothing is extended (44_beam_engine.md R333). -/
theorem extend_of_not_tracing (ht : b.tr = false) : (b.integrate v).extend p = b.integrate v := by
  simp [Beam.extend, Beam.integrate, ht]

/-- Tracing, the end point follows the beam where that is inside the display (44_beam_engine.md R333). -/
theorem extend_of_tracing (ht : b.tr = true) : (b.integrate v).extend p = { b.integrate v with
    x1 := if inside p (b.x + v.1) (b.y + v.2) then b.x + v.1 else b.x1
    y1 := if inside p (b.x + v.1) (b.y + v.2) then b.y + v.2 else b.y1 } := by
  simp only [Beam.extend, Beam.integrate, ht, Bool.true_and, inBounds_iff]
  split <;> rfl

end

end Sys2Proof.Machine

namespace Sys2Proof

open Sys2Proof.Machine Sys2Proof.Claim

/-- Settles O34: the step in arithmetic, its fault by the position it reaches. -/
theorem beamStepMovesOrFaultsAtTheLimit : Obligations.BeamStepMovesOrFaultsAtTheLimit := by
  intro s
  obtain ⟨hx, hy⟩ := advance_position_eq s
  dsimp only
  rw [← hx, ← hy]
  constructor
  · intro hl
    refine ⟨_, _, ?_, exec_beam_eq_next.2 ⟨hl, rfl⟩, (advance_sameSamples s).eq⟩
    cases (s.b.advance s.cfg s.c).2 <;> simp
  · intro hl
    rcases beamStep_completesOrFaults s with ⟨t, ht⟩ | hf
    · exact absurd (exec_beam_eq_next.1 ht).1 hl
    · exact hf

/-- Settles O35: each case is one tracing rule, then the integration and the extension. -/
theorem tracingFollowsItsStateMachine : Obligations.TracingFollowsItsStateMachine := by
  intro s t h
  have hz : t.b.zsh = (sampled s.c.orb s.b).zsh := by
    obtain ⟨-, rfl⟩ := exec_beam_eq_next.1 h
    exact (advance_sameSamples s).zsh
  refine ⟨fun ht ho hi => ?_, fun ht hno => ?_, fun ht ho => ?_, fun ht ho hc hi => ?_, fun ht ho hc hi => ?_,
    fun ht ho hc => ?_, ?_⟩
  · obtain ⟨hb, hvec, hout⟩ := exec_beam_traced h (traceFsm_start (b := sampled s.c.orb s.b) ht ho hi)
    rw [extend_of_tracing rfl] at hb
    rw [hb]
    exact ⟨⟨rfl, rfl, rfl, rfl, rfl, rfl, apply_ite₂ Prod.mk ..⟩, hvec.trans (List.append_nil _),
      hout.trans (List.append_nil _)⟩
  · obtain ⟨hb, hvec, hout⟩ := exec_beam_traced h (traceFsm_idle (b := sampled s.c.orb s.b) ht hno)
    rw [extend_of_not_tracing (b := sampled s.c.orb s.b) ht] at hb
    rw [hb]
    exact ⟨⟨ht, ⟨rfl, rfl, rfl, rfl, rfl⟩, rfl, rfl⟩, hvec.trans (List.append_nil _), hout.trans (List.append_nil _)⟩
  · obtain ⟨hb, hvec, hout⟩ := exec_beam_traced h (traceFsm_end (b := sampled s.c.orb s.b) ht ho)
    rw [extend_of_not_tracing rfl] at hb
    rw [hb]
    exact ⟨⟨rfl, ⟨rfl, rfl, rfl, rfl, rfl⟩, rfl, rfl⟩, hvec, hout⟩
  · rw [hz] at hc
    obtain ⟨hb, hvec, hout⟩ := exec_beam_traced h (traceFsm_restart (b := sampled s.c.orb s.b) ht ho hc hi)
    rw [extend_of_tracing rfl] at hb
    rw [hb]
    exact ⟨⟨rfl, rfl, rfl, rfl, rfl, rfl, apply_ite₂ Prod.mk ..⟩, hvec, hout⟩
  · rw [hz] at hc
    obtain ⟨hb, hvec, hout⟩ := exec_beam_traced h (traceFsm_stop (b := sampled s.c.orb s.b) ht ho hc hi)
    rw [extend_of_not_tracing rfl] at hb
    rw [hb]
    exact ⟨⟨rfl, ⟨rfl, rfl, rfl, rfl, rfl⟩, rfl, rfl⟩, hvec, hout⟩
  · rw [hz] at hc
    obtain ⟨hb, hvec, hout⟩ := exec_beam_traced h (traceFsm_continue (b := sampled s.c.orb s.b) ht ho hc)
    rw [extend_of_tracing (b := sampled s.c.orb s.b) ht] at hb
    rw [hb]
    exact ⟨ht, ⟨rfl, rfl, rfl, rfl, rfl⟩, ⟨hvec.trans (List.append_nil _), hout.trans (List.append_nil _)⟩,
      apply_ite₂ Prod.mk ..⟩
  · obtain ⟨-, rfl⟩ := exec_beam_eq_next.1 h
    exact advance_position_eq s

end Sys2Proof
end

section
/-! Cycles and instruction ends: what a cycle does to the whole state, runs of cycles, the frame accounting and the records, and
the outcome of every request (45_scheduler.md, 60_exceptions.md section 1). -/

namespace Sys2Proof.Machine

open Sys2Proof.Claim

/-! ### The cycle -/

/-- The Beam Engine step of a cycle, with the record emitted: it follows Phase A (45_scheduler.md R360). -/
abbrev cycleAdvance (s : State) : Beam × Option VecRec := s.b.advance s.cfg s.c.phaseA

/-- A cycle that completes, over the whole state (45_scheduler.md R360). -/
theorem cycle_eq_next_advance {s t : State} : cycle s = .next t ↔
    ((cycleAdvance s).1.x.natAbs < s.cfg.posLimit ∧ (cycleAdvance s).1.y.natAbs < s.cfg.posLimit)
    ∧ t = { s with
        c := s.c.phaseA.phaseB
        b := (cycleAdvance s).1
        g := { s.g with vec := s.g.vec ++ (cycleAdvance s).2.toList }
        out := s.out ++ (cycleAdvance s).2.toList.map Output.line } := by
  change andThen (exec .beam (s.mapC Controller.phaseA)) (fun u => .next (u.mapC Controller.phaseB)) = .next t ↔ _
  simp only [andThen_eq_next, exec_beam_eq_next, Host.Outcome.next.injEq]
  constructor
  · rintro ⟨u, ⟨hl, rfl⟩, rfl⟩
    exact ⟨hl, rfl⟩
  · rintro ⟨hl, rfl⟩
    exact ⟨_, ⟨hl, rfl⟩, rfl⟩

/-- A cycle puts the beam at the display's centre, or moves it by at most the fastest step (44_beam_engine.md R328). -/
theorem cycleAdvance_bound (s : State) :
    ((cycleAdvance s).1.x = (s.cfg.maxX / 2 : Nat) ∧ (cycleAdvance s).1.y = (s.cfg.maxY / 2 : Nat))
    ∨ (((cycleAdvance s).1.x - s.b.x).natAbs ≤ 255 ∧ ((cycleAdvance s).1.y - s.b.y).natAbs ≤ 255) :=
  Beam.advance_bound s.cfg s.c.phaseA s.b

/-- A fastest step inside the limit, and the display's centre inside it, leaves room for one cycle. -/
theorem exists_cycle_of_inside {s : State} (hx : s.b.x.natAbs + 255 < s.cfg.posLimit) (hy : s.b.y.natAbs + 255 < s.cfg.posLimit)
    (hcx : s.cfg.maxX / 2 < s.cfg.posLimit) (hcy : s.cfg.maxY / 2 < s.cfg.posLimit) : ∃ t, cycle s = .next t := by
  have hb := cycleAdvance_bound s
  exact ⟨_, cycle_eq_next_advance.2 ⟨by omega, rfl⟩⟩

/-- The Controller's elements a cycle can write (41_controller_cycle.md R214, R216). -/
theorem phaseA_phaseB_frame (c : Controller) : c.phaseA.phaseB = { c with
    t1c := c.phaseA.phaseB.t1c, t1pb7 := c.phaseA.phaseB.t1pb7, t1arm := c.phaseA.phaseB.t1arm
    t2c := c.phaseA.phaseB.t2c, t2arm := c.phaseA.phaseB.t2arm
    sr := c.phaseA.phaseB.sr, srcnt := c.phaseA.phaseB.srcnt, srdiv := c.phaseA.phaseB.srdiv, srph := c.phaseA.phaseB.srph
    ifr := c.phaseA.phaseB.ifr, ca2 := c.phaseA.phaseB.ca2, cb2h := c.phaseA.phaseB.cb2h, cb2s := c.phaseA.phaseB.cb2s } := by
  rw [Controller.phaseA_eq]
  rfl

/-- What no cycle changes: the configuration, the Synthesizer, the selection, the frame counter and the request stream
(45_scheduler.md R360, 20_memory.md section 5). -/
structure SameOutsideCycle (s t : State) : Prop where
  cfg : t.cfg = s.cfg
  syn : t.syn = s.syn
  sel : t.g.sel = s.g.sel
  frame : t.g.frame = s.g.frame
  pending : t.pending = s.pending

theorem cycle_sameOutsideCycle {s t : State} (h : cycle s = .next t) : SameOutsideCycle s t := by
  obtain ⟨-, rfl⟩ := cycle_eq_next_advance.1 h
  exact ⟨rfl, rfl, rfl, rfl, rfl⟩

theorem cycles_sameOutsideCycle {n : Nat} {s t : State} (h : cycles n s = .next t) : SameOutsideCycle s t := by
  refine cycles_induction (P := SameOutsideCycle s) (fun u v hu hv => ?_) ⟨rfl, rfl, rfl, rfl, rfl⟩ h
  obtain ⟨hcfg, hsyn, hsel, hframe, hpending⟩ := cycle_sameOutsideCycle hv
  exact ⟨hcfg.trans hu.cfg, hsyn.trans hu.syn, hsel.trans hu.sel, hframe.trans hu.frame, hpending.trans hu.pending⟩

/-- With the beam and the display's centre n fastest steps inside the limit, n cycles complete. -/
theorem exists_cycles_of_inside (n : Nat) {s : State}
    (hx : s.b.x.natAbs + 255 * n < s.cfg.posLimit) (hy : s.b.y.natAbs + 255 * n < s.cfg.posLimit)
    (hcx : s.cfg.maxX / 2 + 255 * n < s.cfg.posLimit) (hcy : s.cfg.maxY / 2 + 255 * n < s.cfg.posLimit) :
    ∃ t, cycles n s = .next t := by
  induction n generalizing s with
  | zero => exact ⟨s, rfl⟩
  | succ n ih =>
    have hstep : 255 ≤ 255 * (n + 1) := Nat.le_mul_of_pos_right _ n.succ_pos
    obtain ⟨u, hu⟩ := exists_cycle_of_inside ((Nat.add_le_add_left hstep _).trans_lt hx)
      ((Nat.add_le_add_left hstep _).trans_lt hy) (by omega) (by omega)
    have hb := cycleAdvance_bound s
    have hcfg := cycle_cfg hu
    have hbeam : u.b = (cycleAdvance s).1 := by
      obtain ⟨-, rfl⟩ := cycle_eq_next_advance.1 hu
      rfl
    rw [← hbeam] at hb
    obtain ⟨t, ht⟩ := ih (s := u) (by rw [hcfg]; omega) (by rw [hcfg]; omega) (by rw [hcfg]; omega) (by rw [hcfg]; omega)
    exact ⟨t, cycles_succ_eq_next.2 ⟨u, hu, ht⟩⟩

theorem frameAccount_eq (n : Byte) (s : State) : s.frameAccount n =
    if s.g.frame - (n.toNat : Int) < 0 then
      { s with g := { s.g with frame := s.cfg.frameCycles, vec := [] }, out := s.out ++ [.frameFlush s.g.vec] }
    else { s with g := { s.g with frame := s.g.frame - (n.toNat : Int) } } := by
  rcases frameAccount_cases n s with ⟨hn, e⟩ | ⟨hn, e⟩
  · rw [e, if_neg (by omega)]
  · rw [e, if_pos hn]

/-! ### The samples -/

/-- The compare bit and the deltas are those of the sample-and-holds (44_beam_engine.md R323, R324). -/
structure SamplesDerived (b : Beam) : Prop where
  cmp : b.cmp = true ↔ b.xsh.toNat < b.jsh.toNat
  dx : b.dx = (b.xsh.toNat : Int) - (b.rsh.toNat : Int)
  dy : b.dy = (b.rsh.toNat : Int) - (b.ysh.toNat : Int)

theorem sampled_samplesDerived (orb : Byte) (b : Beam) : SamplesDerived (sampled orb b) :=
  ⟨decide_eq_true_iff, rfl, rfl⟩

theorem advance_samplesDerived (p : Params) (c : Controller) (b : Beam) : SamplesDerived (b.advance p c).1 := by
  obtain ⟨hr, hx, hy, -, -, hj, hc, hdx, hdy⟩ := advance_sameSamples { State.reset with cfg := p, c := c, b := b }
  obtain ⟨hcmp, hdx', hdy'⟩ := sampled_samplesDerived c.orb b
  exact ⟨by rw [hc, hx, hj, hcmp], by rw [hdx, hx, hr, hdx'], by rw [hdy, hr, hy, hdy']⟩

theorem cycle_samplesDerived {s t : State} (h : cycle s = .next t) : SamplesDerived t.b := by
  obtain ⟨-, rfl⟩ := cycle_eq_next_advance.1 h
  exact advance_samplesDerived ..

/-- The deltas' range (10_state.md R53). -/
theorem SamplesDerived.bounds {b : Beam} (h : SamplesDerived b) :
    -255 ≤ b.dx ∧ b.dx ≤ 255 ∧ -255 ≤ b.dy ∧ b.dy ≤ 255 := by
  obtain ⟨-, hdx, hdy⟩ := h
  omega

/-! ### The records -/

@[simp] theorem emitted_append (os os' : List Output) : emitted (os ++ os') = emitted os ++ emitted os' :=
  List.filterMap_append

@[simp] theorem emitted_map_line (vs : List VecRec) : emitted (vs.map Output.line) = vs := by
  simp [emitted, List.filterMap_map]

/-- `t` is `s` with outputs appended and the records among them appended to the list (45_scheduler.md R364). -/
def Records (s t : State) : Prop := ∃ os, t.out = s.out ++ os ∧ t.g.vec = s.g.vec ++ emitted os

theorem Records.of_eq {s t : State} (ho : t.out = s.out) (hv : t.g.vec = s.g.vec) : Records s t :=
  ⟨[], by rw [ho, List.append_nil], by rw [hv]; exact (List.append_nil _).symm⟩

/-- A thing given to the surroundings that is no record. -/
theorem Records.of_give {s t : State} {o : Output} (ho : t.out = s.out ++ [o]) (hn : emitted [o] = [])
    (hv : t.g.vec = s.g.vec) : Records s t := ⟨[o], ho, by rw [hv, hn, List.append_nil]⟩

theorem Records.trans {s t u : State} (h : Records s t) (h' : Records t u) : Records s u := by
  obtain ⟨os, ho, hv⟩ := h
  obtain ⟨os', ho', hv'⟩ := h'
  exact ⟨os ++ os', by rw [ho', ho, List.append_assoc], by rw [hv', hv, emitted_append, List.append_assoc]⟩

theorem beam_records {s t : State} (h : exec .beam s = .next t) : Records s t := by
  obtain ⟨-, rfl⟩ := exec_beam_eq_next.1 h
  exact ⟨_, rfl, by rw [emitted_map_line]⟩

theorem cycle_records {s t : State} (h : cycle s = .next t) : Records s t := by
  obtain ⟨-, rfl⟩ := cycle_eq_next_advance.1 h
  exact ⟨_, rfl, by rw [emitted_map_line]⟩

theorem cycles_records {n : Nat} {s t : State} (h : cycles n s = .next t) : Records s t :=
  cycles_induction (P := Records s) (fun _ _ hu hc => hu.trans (cycle_records hc)) (.of_eq rfl rfl) h

theorem protocol_records {s t : State} {c : Controller} {b : Beam} (ho : s.out = t.out) (hv : s.g.vec = t.g.vec) :
    Records t { protocol s with c := c, b := b } := by
  obtain ⟨-, -, -, -, hvec, hout, -⟩ := psgProtocol_frame s
  rw [psgProtocol_eq_protocol] at hvec hout
  exact .of_eq (hout.trans ho) (hvec.trans hv)

end Sys2Proof.Machine

namespace Sys2Proof

open Sys2Proof.Machine Sys2Proof.Claim

/-- Settles O7: only the Beam Engine step has a guard, and the three requests that run it pass its fault on. -/
theorem everyRequestCompletesOrReachesThePositionLimit :
    Obligations.EveryRequestCompletesOrReachesThePositionLimit := by
  intro i s
  cases i with
  | beam => exact (beamStep_completesOrFaults s).imp id fun h => ⟨h, .inl rfl⟩
  | cyc => exact (cycle_completesOrFaults s).imp id fun h => ⟨h, .inr (.inl rfl)⟩
  | iend n =>
    have h : CompletesOrFaults (exec (.iend n) s) :=
      andThen_completesOrFaults (cycles_completesOrFaults n.toNat s) fun _ => .inl ⟨_, rfl⟩
    exact h.imp id fun h => ⟨h, .inr (.inr ⟨n, rfl⟩)⟩
  | _ => exact .inl ⟨_, rfl⟩

/-- Settles O19: each of these requests ends in a sample update, and what follows it leaves the samples. -/
theorem compareAndDeltasFollowTheSamples : Obligations.CompareAndDeltasFollowTheSamples := by
  intro i s t hi h
  suffices hd : SamplesDerived t.b from ⟨hd.cmp, hd.dx, hd.dy, hd.bounds⟩
  rcases hi with ⟨d, rfl | rfl | rfl⟩ | rfl | rfl | ⟨n, hn, rfl⟩
  · rw [exec_cwr0] at h
    obtain rfl := Host.Outcome.next.inj h
    exact sampled_samplesDerived ..
  · rw [exec_cwr1] at h
    obtain rfl := Host.Outcome.next.inj h
    exact sampled_samplesDerived ..
  · rw [exec_cwrF] at h
    obtain rfl := Host.Outcome.next.inj h
    exact sampled_samplesDerived ..
  · obtain ⟨-, rfl⟩ := exec_beam_eq_next.1 h
    exact advance_samplesDerived ..
  · exact cycle_samplesDerived h
  · obtain ⟨u, hu, rfl⟩ := exec_iend_eq_next.1 h
    obtain ⟨k, hk⟩ := Nat.exists_eq_add_of_lt hn
    rw [Nat.zero_add] at hk
    rw [hk] at hu
    obtain ⟨v, hv, hu⟩ := cycles_succ_eq_next.1 hu
    have hu' : SamplesDerived u.b :=
      cycles_induction (P := fun w => SamplesDerived w.b) (fun _ _ _ => cycle_samplesDerived) (cycle_samplesDerived hv) hu
    rcases frameAccount_cases n u with ⟨-, e⟩ | ⟨-, e⟩ <;> rw [e] <;> exact hu'

/-- Settles O38: the bound on a step's move keeps the cycle inside the limit. -/
theorem cycleCompletesInsideTheLimit : Obligations.CycleCompletesInsideTheLimit := by
  intro s hx hy hcx hcy
  obtain ⟨t, h⟩ := exists_cycle_of_inside hx hy hcx hcy
  obtain ⟨-, rfl⟩ := cycle_eq_next_advance.1 h
  have hj := (advance_sameSamples (s.mapC Controller.phaseA)).j
  exact ⟨_, h, rfl, rfl, rfl, rfl, rfl, hj, phaseA_phaseB_frame s.c, cycleAdvance_bound s⟩

/-- Settles O39: requests for cycles alone run as many cycles, and each leaves room for the ones after it. -/
theorem instructionEndRunsItsCyclesThenAccounts : Obligations.InstructionEndRunsItsCyclesThenAccounts := by
  intro s n
  constructor
  · intro u hu
    rw [execAll_times_cyc] at hu
    rw [← cycles_cfg hu, ← frameAccount_eq]
    exact exec_iend_eq_next.2 ⟨u, hu, rfl⟩
  · intro hx hy hcx hcy
    obtain ⟨u, hu⟩ := exists_cycles_of_inside n.toNat hx hy hcx hcy
    obtain ⟨hcfg, hsyn, hsel, -, hpending⟩ := cycles_sameOutsideCycle hu
    refine ⟨_, exec_iend_eq_next.2 ⟨u, hu, rfl⟩, ?_⟩
    rcases frameAccount_cases n u with ⟨-, e⟩ | ⟨-, e⟩ <;> rw [e] <;> exact ⟨hcfg, hsyn, hsel, hpending⟩

/-- Settles O41: beside the records of a Beam Engine step no request gives one out, and only the accounting empties the list. -/
theorem recordsGrowAsEmittedUntilTheFlush : Obligations.RecordsGrowAsEmittedUntilTheFlush := by
  intro i s t h hreset
  have hkept (hr : Records s t) : ∃ os : List Output, t.out = s.out ++ os ∧ (t.g.vec = s.g.vec ++ emitted os
      ∨ ((∃ n, i = .iend n) ∧ t.g.vec = [] ∧ t.g.frame = s.cfg.frameCycles
        ∧ Output.frameFlush (s.g.vec ++ emitted os) ∈ os)) := hr.imp fun _ ⟨ho, hv⟩ => ⟨ho, .inl hv⟩
  cases i with
  | reset => exact absurd rfl hreset
  | beam => exact hkept (beam_records h)
  | cyc => exact hkept (cycle_records h)
  | iend n =>
    obtain ⟨u, hu, rfl⟩ := exec_iend_eq_next.1 h
    obtain ⟨os, ho, hv⟩ := cycles_records hu
    rcases frameAccount_cases n u with ⟨-, e⟩ | ⟨-, e⟩ <;> rw [e]
    · exact ⟨os, ho, .inl hv⟩
    · refine ⟨os ++ [.frameFlush u.g.vec], by rw [ho, List.append_assoc], .inr ⟨⟨n, rfl⟩, rfl, ?_, ?_⟩⟩
      · rw [cycles_cfg hu]
      · rw [emitted_append, hv]
        simp [emitted]
  | cwr0 d =>
    rw [exec_cwr0] at h
    obtain rfl := Host.Outcome.next.inj h
    exact hkept (protocol_records rfl rfl)
  | cwr1 d =>
    rw [exec_cwr1] at h
    obtain rfl := Host.Outcome.next.inj h
    exact hkept (protocol_records rfl rfl)
  | cwrF d =>
    rw [exec_cwrF] at h
    obtain rfl := Host.Outcome.next.inj h
    exact hkept (protocol_records rfl rfl)
  | crd0 | crd1 | crd2 | crd3 | crd4 | crd5 | crd6 | crd7 | crd8 | crd9 | crdA | crdB | crdC | crdD | crdE | crdF | srd r
  | ibeg | sample =>
    obtain rfl := Host.Outcome.next.inj h
    exact hkept (.of_give rfl rfl rfl)
  | _ =>
    obtain rfl := Host.Outcome.next.inj h
    exact hkept (.of_eq rfl rfl)

end Sys2Proof
end

section
/-! The one-shot timer-1 ramp: with the toggle as the ramp signal the beam moves in as many cycles as timer 1 is loaded with
(70_reset_and_hazards.md section 3). -/

namespace Sys2Proof.Machine

open Sys2Proof.Claim

/-- With the ramp on the toggle, the zero line inactive and the demultiplexer off, the toggle alone decides the velocity
(44_beam_engine.md R326 to R328). -/
theorem velocity_of_toggle {p : Params} {c : Controller} {b : Beam} (hacr : c.acr.toNat / 128 = 1) (hca2 : c.ca2 = true)
    (horb : c.orb.toNat % 2 = 1) : Claim.velocity p c b =
      if c.t1pb7 = false then ((b.xsh.toNat : Int) - (b.rsh.toNat : Int), (b.rsh.toNat : Int) - (b.ysh.toNat : Int))
      else (0, 0) := by
  simp [Claim.velocity, rampSignal, sampled, hacr, hca2, horb]

/-- With the demultiplexer off a cycle latches nothing from X (44_beam_engine.md R321). -/
theorem cycleAdvance_samples_of_demuxOff {s : State} (horb : s.c.orb.toNat % 2 = 1) :
    (cycleAdvance s).1.xsh = s.b.xsh ∧ (cycleAdvance s).1.rsh = s.b.rsh ∧ (cycleAdvance s).1.ysh = s.b.ysh := by
  obtain ⟨hr, hx, hy, -⟩ := advance_sameSamples (s.mapC Controller.phaseA)
  refine ⟨hx, hr.trans ?_, hy.trans ?_⟩ <;> simp [sampled, horb]

/-- At most n moves of at most 255 from n fastest steps inside the limit stay inside it. -/
theorem natAbs_moved_lt {x v : Int} {m n lim : Nat} (hm : m ≤ n) (hv : v.natAbs ≤ 255) (hx : x.natAbs + 255 * n < lim) :
    (x + m * v).natAbs < lim := by
  calc (x + m * v).natAbs ≤ x.natAbs + (m * v).natAbs := Int.natAbs_add_le ..
    _ = x.natAbs + v.natAbs * m := by rw [Int.natAbs_mul, Int.natAbs_natCast, Nat.mul_comm]
    _ ≤ x.natAbs + 255 * n := Nat.add_le_add_left (Nat.mul_le_mul hv hm) _
    _ < lim := hx

/-- `k` cycles into a one-shot ramp of `n` that began with the beam `b`. -/
structure RampRun (n k : Nat) (b : Beam) (s : State) : Prop where
  timer : Controller.OneShot1 n k s.c
  onToggle : s.c.acr.toNat / 128 = 1
  zeroOff : s.c.ca2 = true
  demuxOff : s.c.orb.toNat % 2 = 1
  xsh : s.b.xsh = b.xsh
  rsh : s.b.rsh = b.rsh
  ysh : s.b.ysh = b.ysh
  x : s.b.x = b.x + (min k n : Nat) * ((b.xsh.toNat : Int) - (b.rsh.toNat : Int))
  y : s.b.y = b.y + (min k n : Nat) * ((b.rsh.toNat : Int) - (b.ysh.toNat : Int))

/-- Where the next cycle of a ramp puts the beam: one move further up to the n-th, and no further after it. -/
theorem RampRun.cycleAdvance_position {n k : Nat} {b : Beam} {s : State} (hn : n < 65536) (h : RampRun n k b s) :
    (cycleAdvance s).1.x = b.x + (min (k + 1) n : Nat) * ((b.xsh.toNat : Int) - (b.rsh.toNat : Int))
    ∧ (cycleAdvance s).1.y = b.y + (min (k + 1) n : Nat) * ((b.rsh.toNat : Int) - (b.ysh.toNat : Int)) := by
  obtain ⟨htimer, hacr, hca2, horb, hxsh, hrsh, hysh, hx, hy⟩ := h
  obtain ⟨-, -, hbefore, hafter⟩ := htimer.phaseA hn
  obtain ⟨hax, hay⟩ := advance_position_eq (s.mapC Controller.phaseA)
  have hv := velocity_of_toggle (p := s.cfg) (c := s.c.phaseA) (b := s.b) (by rw [Controller.phaseA_acr, hacr])
    (by rw [Controller.phaseA_ca2, hca2]) (by rw [Controller.phaseA_orb, horb])
  rw [State.mapC_b, State.mapC_cfg, State.mapC_c, hv, hxsh, hrsh, hysh] at hax hay
  rw [hax, hay, hx, hy]
  by_cases hk : k + 1 ≤ n
  · obtain ⟨-, -, hpb7, -⟩ := hbefore hk
    rw [if_pos hpb7, Nat.min_eq_left hk, Nat.min_eq_left (Nat.le_of_succ_le hk)]
    constructor <;> push_cast <;> ring
  · obtain ⟨-, -, hpb7, -⟩ := hafter (Nat.lt_of_not_le hk)
    rw [if_neg (by rw [hpb7]; decide), Nat.min_eq_right (by omega), Nat.min_eq_right (by omega)]
    exact ⟨Int.add_zero _, Int.add_zero _⟩

theorem RampRun.exists_cycle {n k : Nat} {b : Beam} {s : State} (hn : n < 65536) (h : RampRun n k b s)
    (hx : b.x.natAbs + 255 * n < s.cfg.posLimit) (hy : b.y.natAbs + 255 * n < s.cfg.posLimit) :
    ∃ t, cycle s = .next t ∧ RampRun n (k + 1) b t := by
  obtain ⟨htx, hty⟩ := h.cycleAdvance_position hn
  obtain ⟨hxsh, hrsh, hysh⟩ := cycleAdvance_samples_of_demuxOff h.demuxOff
  rw [h.xsh] at hxsh
  rw [h.rsh] at hrsh
  rw [h.ysh] at hysh
  have hlx : (cycleAdvance s).1.x.natAbs < s.cfg.posLimit := by
    rw [htx]
    exact natAbs_moved_lt (Nat.min_le_right ..) (by omega) hx
  have hly : (cycleAdvance s).1.y.natAbs < s.cfg.posLimit := by
    rw [hty]
    exact natAbs_moved_lt (Nat.min_le_right ..) (by omega) hy
  obtain ⟨hon, honeShot, hbefore, hafter⟩ := h.timer.phaseA hn
  refine ⟨_, cycle_eq_next_advance.2 ⟨⟨hlx, hly⟩, rfl⟩, ⟨hon, honeShot, hbefore, hafter⟩, ?_, ?_, ?_,
    hxsh, hrsh, hysh, htx, hty⟩
  · change s.c.phaseA.acr.toNat / 128 = 1
    rw [Controller.phaseA_acr, h.onToggle]
  · rw [phaseB_eq, Controller.phaseA_ca2, h.zeroOff, Bool.true_or]
  · change s.c.phaseA.orb.toNat % 2 = 1
    rw [Controller.phaseA_orb, h.demuxOff]

theorem RampRun.exists_cycles {n : Nat} {b : Beam} (hn : n < 65536) (j : Nat) {k : Nat} {s : State} (h : RampRun n k b s)
    (hx : b.x.natAbs + 255 * n < s.cfg.posLimit) (hy : b.y.natAbs + 255 * n < s.cfg.posLimit) :
    ∃ t, cycles j s = .next t ∧ RampRun n (k + j) b t := by
  induction j generalizing k s with
  | zero => exact ⟨s, rfl, h⟩
  | succ j ih =>
    obtain ⟨u, hu, hrun⟩ := h.exists_cycle hn hx hy
    obtain ⟨t, ht, hrun⟩ := ih hrun (by rwa [cycle_cfg hu]) (by rwa [cycle_cfg hu])
    exact ⟨t, cycles_succ_eq_next.2 ⟨u, hu, ht⟩, by rwa [Nat.add_right_comm] at hrun⟩

end Sys2Proof.Machine

namespace Sys2Proof

open Sys2Proof.Machine Sys2Proof.Claim

/-- Settles O36: the write starts the one-shot run, and each cycle is one step of the ramp. -/
theorem timer1RampMovesTheBeamForExactlyNCycles : Obligations.Timer1RampMovesTheBeamForExactlyNCycles := by
  intro s d k n hacr hmode hca2 horb hx hy
  have hstart : RampRun n 0 s.b (s.mapC fun c => Controller.t1Start { c with t1lh := d }) :=
    ⟨.start d hmode, hacr, hca2, horb, rfl, rfl, rfl, by simp, by simp⟩
  obtain ⟨u, hu, hrun⟩ := hstart.exists_cycles (timerLoad_lt d s.c.t1ll) k hx hy
  rw [Nat.zero_add] at hrun
  refine ⟨u, ?_, hrun.x, hrun.y⟩
  rw [execAll_cons_of_next (i := .cwr5 d) rfl, execAll_times_cyc]
  exact hu

end Sys2Proof
end

section
/-! Writes of the Synthesizer's registers in arithmetic: periods and moved counters, volumes, and the shape
(42_synth_registers.md sections 1 and 2). -/

namespace Sys2Proof.Machine

open Sys2Proof.Claim

namespace Synth

/-! ### Periods and counters -/

/-- A moved counter is clamped to 1 from below (42_synth_registers.md R241, 92_eei_decisions.md D19). -/
theorem movedCount_eq_max (c : Int) (p q : Nat) : movedCount c p q = max 1 (c + ((q : Int) - (p : Int))) := by
  have h1 := movedCount_pos c p q
  have h2 := movedCount_cases c p q
  omega

/-- Retuning a voice, in arithmetic (42_synth_registers.md R241, 30_encoding.md R112). -/
theorem retune_tonePeriod (fine coarse : Byte) (v : Voice) : retune (tonePeriod fine coarse) v = retuned fine coarse v := by
  simp only [retune, tonePeriod, extractLsb'_toNat_div, movedCount_eq_max, Nat.pow_zero, Nat.div_one]
  rfl

/-- A write of the fine half of a tone period retunes with the byte written and the coarse half as it stands. -/
theorem retune_setReg_fine (y : Synth) {k l : BitVec 4} (hkl : k ≠ l) (d : Byte) (v : Voice) :
    retune (tonePeriod ((y.setReg k d).reg k) ((y.setReg k d).reg l)) v = retuned d (y.reg l) v := by
  rw [reg_setReg_self, reg_setReg_ne y d hkl, retune_tonePeriod]

/-- A write of the coarse half of a tone period retunes with the fine half as it stands and the byte written. -/
theorem retune_setReg_coarse (y : Synth) {k l : BitVec 4} (hkl : k ≠ l) (d : Byte) (v : Voice) :
    retune (tonePeriod ((y.setReg k d).reg l) ((y.setReg k d).reg k)) v = retuned (y.reg l) d v := by
  rw [reg_setReg_self, reg_setReg_ne y d hkl, retune_tonePeriod]

/-- The noise period, in arithmetic (30_encoding.md R112). -/
theorem noisePeriod_eq (d : Byte) : noisePeriod d = max 1 (d.toNat % 32) := by
  simp only [noisePeriod, extractLsb'_toNat_div, Nat.pow_zero, Nat.div_one, Nat.reducePow]

/-! ### Volumes -/

/-- The table index of a volume byte's level, in arithmetic (30_encoding.md R113). -/
theorem volIndex_level (d : Byte) : volIndex (d.extractLsb' 0 4)
    = BitVec.ofNat 5 (if d.toNat % 16 = 0 then 0 else 2 * (d.toNat % 16) + 1) := by
  have hlevel : (d.extractLsb' 0 4).toNat = d.toNat % 16 := by
    simp only [extractLsb'_toNat_div, Nat.pow_zero, Nat.div_one, Nat.reducePow]
  have hzero : d.extractLsb' 0 4 = 0#4 ↔ d.toNat % 16 = 0 := by
    rw [← hlevel, ← BitVec.toNat_inj]
    rfl
  simp only [volIndex, hzero, hlevel]
  split <;> rfl

/-- A volume byte's effect on its voice, in arithmetic (42_synth_registers.md R250). -/
theorem revolume_eq (p : Params) (d : Byte) (volE : Nat) (v : Voice) :
    { v with envSel := volEnvSelect d, vol := voiceVolume p d volE } = revolumed p d volE v := by
  simp only [revolumed, voiceVolume, fixedVolume, volEnvSelect, volIndex_level, getLsbD_eq_decide, decide_eq_true_eq]
  rfl

/-! ### The shape -/

theorem followEnv_eq_following (e : Nat) (v : Voice) : followEnv e v = following e v := by
  unfold followEnv following
  split <;> rfl

/-- A shape byte, in arithmetic (30_encoding.md R114). -/
theorem decodeShape_eq (d : Byte) : decodeShape d =
    { hold := if d.toNat / 8 % 2 = 1 then decide (d.toNat % 2 = 1) else true
      alt := if d.toNat / 8 % 2 = 1 then decide (d.toNat / 2 % 2 = 1) else decide (d.toNat / 4 % 2 = 1)
      attack := if d.toNat / 4 % 2 = 1 then 31#5 else 0#5 } := by
  simp only [decodeShape, getLsbD_eq_decide, decide_eq_true_eq, Nat.pow_zero, Nat.div_one, Nat.reducePow]
  by_cases hup : d.toNat / 4 % 2 = 1 <;> by_cases hgo : d.toNat / 8 % 2 = 1 <;> simp [hup, hgo]

/-- The first volume of a shape (42_synth_registers.md R257). -/
theorem vol_shape (p : Params) (up : Prop) [Decidable up] :
    p.vol (31#5 ^^^ if up then 31#5 else 0#5) = if up then p.volTable[0] else p.volTable[31] := by
  split <;> rfl

end Synth

end Sys2Proof.Machine

namespace Sys2Proof

open Sys2Proof.Machine Sys2Proof.Machine.Synth Sys2Proof.Claim

/-- Settles O44: each write stores its byte and retunes its voice with the other half of the pair as it stands. -/
theorem tonePeriodWritesRetuneTheirVoice : Obligations.TonePeriodWritesRetuneTheirVoice := by
  intro s d y
  refine ⟨?_, ?_, ?_, ?_, ?_, ?_⟩
  · exact congrArg (fun v => Host.Outcome.next { s with syn := { y with r := y.r.set 0 d, va := v } })
      (retune_setReg_fine y (k := 0#4) (l := 1#4) (by decide) d y.va)
  · exact congrArg (fun v => Host.Outcome.next { s with syn := { y with r := y.r.set 1 d, va := v } })
      (retune_setReg_coarse y (k := 1#4) (l := 0#4) (by decide) d y.va)
  · exact congrArg (fun v => Host.Outcome.next { s with syn := { y with r := y.r.set 2 d, vb := v } })
      (retune_setReg_fine y (k := 2#4) (l := 3#4) (by decide) d y.vb)
  · exact congrArg (fun v => Host.Outcome.next { s with syn := { y with r := y.r.set 3 d, vb := v } })
      (retune_setReg_coarse y (k := 3#4) (l := 2#4) (by decide) d y.vb)
  · exact congrArg (fun v => Host.Outcome.next { s with syn := { y with r := y.r.set 4 d, vc := v } })
      (retune_setReg_fine y (k := 4#4) (l := 5#4) (by decide) d y.vc)
  · exact congrArg (fun v => Host.Outcome.next { s with syn := { y with r := y.r.set 5 d, vc := v } })
      (retune_setReg_coarse y (k := 5#4) (l := 4#4) (by decide) d y.vc)

/-- Settles O45: the period of the registers after the store, and the counter moved to it. -/
theorem noiseAndEnvelopePeriodWrites : Obligations.NoiseAndEnvelopePeriodWrites := by
  intro s d y pn pf pc
  refine ⟨?_, ?_, ?_⟩
  · have hp : noisePeriod ((y.setReg 6#4 d).reg 6#4) = pn := by rw [reg_setReg_self, noisePeriod_eq]
    rw [← movedCount_eq_max, ← hp]
    rfl
  · have hp : envPeriod ((y.setReg 11#4 d).reg 11#4) ((y.setReg 11#4 d).reg 12#4) = pf := by
      rw [reg_setReg_self, reg_setReg_ne y d (by decide)]
      rfl
    rw [← movedCount_eq_max, ← hp]
    rfl
  · have hp : envPeriod ((y.setReg 12#4 d).reg 11#4) ((y.setReg 12#4 d).reg 12#4) = pc := by
      rw [reg_setReg_self, reg_setReg_ne y d (by decide)]
      rfl
    rw [← movedCount_eq_max, ← hp]
    rfl

/-- Settles O47: a volume write revolumes its voice from the byte just stored. -/
theorem volumeWritesSelectLevelOrEnvelope : Obligations.VolumeWritesSelectLevelOrEnvelope := by
  intro s d y
  have hvoice (k : BitVec 4) (v : Voice) :
      { v with envSel := volEnvSelect ((y.setReg k d).reg k), vol := voiceVolume s.cfg ((y.setReg k d).reg k) y.volE }
        = revolumed s.cfg d y.volE v := by
    rw [reg_setReg_self, revolume_eq]
  refine ⟨?_, ?_, ?_⟩
  · exact congrArg (fun v => Host.Outcome.next { s with syn := { y with r := y.r.set 8 d, va := v } }) (hvoice 8#4 y.va)
  · exact congrArg (fun v => Host.Outcome.next { s with syn := { y with r := y.r.set 9 d, vb := v } }) (hvoice 9#4 y.vb)
  · exact congrArg (fun v => Host.Outcome.next { s with syn := { y with r := y.r.set 10 d, vc := v } }) (hvoice 10#4 y.vc)

/-- Settles O48: the decoded shape in arithmetic; the first volume is an end of the table, and the voices follow it. -/
theorem shapeWriteRestartsTheEnvelope : Obligations.ShapeWriteRestartsTheEnvelope := by
  intro s d y up goes e
  have he : s.cfg.vol (31#5 ^^^ (decodeShape d).attack) = e := by
    rw [decodeShape_eq]
    exact vol_shape s.cfg up
  have hwrite : exec (.swrD d) s = .next { s with syn := { y with
      r := y.r.set 13 d, attack := (decodeShape d).attack, hold := (decodeShape d).hold, alt := (decodeShape d).alt
      cntE := y.perE, step := 31#5, holding := false, volE := s.cfg.vol (31#5 ^^^ (decodeShape d).attack)
      va := followEnv (s.cfg.vol (31#5 ^^^ (decodeShape d).attack)) y.va
      vb := followEnv (s.cfg.vol (31#5 ^^^ (decodeShape d).attack)) y.vb
      vc := followEnv (s.cfg.vol (31#5 ^^^ (decodeShape d).attack)) y.vc } } := rfl
  rw [hwrite, he]
  simp only [decodeShape_eq, followEnv_eq_following]
  rfl

end Sys2Proof
end

section
/-! A tick's noise step, envelope step and high-time accumulation, and the ticks of a sample (43_synth_generators.md). -/

namespace Sys2Proof.Machine

open Sys2Proof.Claim

namespace Synth

/-! ### The noise generator -/

/-- The noise register after an underflow, in arithmetic (43_synth_generators.md R282). -/
theorem nextRng_toNat (g : BitVec 17) :
    (nextRng g).toNat = (if g.toNat % 2 = 1 then g.toNat ^^^ 0x24000 else g.toNat) / 2 := by
  have hg := g.isLt
  have hw : (g.setWidth 18).toNat = g.toNat := by
    rw [BitVec.toNat_setWidth, Nat.mod_eq_of_lt (by omega)]
  have hx : (g.setWidth 18 ^^^ 0x24000#18).toNat = g.toNat ^^^ 0x24000 := by
    rw [BitVec.toNat_xor, hw]
    rfl
  have hlt := (g.setWidth 18 ^^^ 0x24000#18).isLt
  rw [hx] at hlt
  simp only [nextRng, getLsbD_eq_decide, decide_eq_true_eq, Nat.pow_zero, Nat.div_one, BitVec.toNat_setWidth,
    BitVec.toNat_ushiftRight, Nat.shiftRight_eq_div_pow, Nat.pow_one]
  split
  · rw [hx, Nat.mod_eq_of_lt (by omega)]
  · rw [hw, Nat.mod_eq_of_lt (by omega)]

/-- On an underflow the noise counter is reloaded and the register moves on (43_synth_generators.md R282). -/
theorem noiseStep_of_underflow {s : Synth} (h : s.cntN - 1 ≤ 0) : s.noiseStep = { s with
    cntN := s.cntN - 1 + s.perN
    outN := if s.rng.getLsbD 0 != s.rng.getLsbD 1 then !s.outN else s.outN
    rng := nextRng s.rng } := if_pos h

/-- Short of an underflow only the noise counter moves (43_synth_generators.md R282). -/
theorem noiseStep_of_running {s : Synth} (h : 0 < s.cntN - 1) : s.noiseStep = { s with cntN := s.cntN - 1 } :=
  if_neg (not_le.2 h)

/-- The elements the noise step writes. -/
theorem noiseStep_frame (s : Synth) :
    s.noiseStep = { s with cntN := s.noiseStep.cntN, outN := s.noiseStep.outN, rng := s.noiseStep.rng } := by
  by_cases h : s.cntN - 1 ≤ 0
  · rw [noiseStep_of_underflow h]
  · rw [noiseStep_of_running (not_le.1 h)]

/-- The noise output flips exactly when the register's two low bits differ (43_synth_generators.md R282, D23). -/
theorem outN_flips_iff (g : BitVec 17) (o : Bool) :
    (if g.getLsbD 0 != g.getLsbD 1 then !o else o) = o ↔ g.toNat % 2 = g.toNat / 2 % 2 := by
  have h0 := Nat.mod_lt g.toNat (y := 2) (by decide)
  have h1 := Nat.mod_lt (g.toNat / 2) (y := 2) (by decide)
  have hbits : g.getLsbD 0 = g.getLsbD 1 ↔ g.toNat % 2 = g.toNat / 2 % 2 := by
    rw [getLsbD_eq_decide, getLsbD_eq_decide, decide_eq_decide, Nat.pow_zero, Nat.div_one, Nat.pow_one]
    omega
  rw [← hbits]
  cases g.getLsbD 0 <;> cases g.getLsbD 1 <;> cases o <;> decide

/-! ### The envelope generator -/

theorem envStep_of_holding (p : Params) {s : Synth} (h : s.holding = true) : s.envStep p = s := if_pos h

/-- Short of an underflow only the envelope counter moves (43_synth_generators.md R283). -/
theorem envStep_of_running (p : Params) {s : Synth} (h : s.holding = false) (hr : 0 < s.cntE - 1) :
    s.envStep p = { s with cntE := s.cntE - 1 } := by
  simp only [envStep, h, Bool.false_eq_true, if_false, if_neg (not_le.2 hr)]

/-- On an underflow the envelope counter is reloaded, the step falls and the volume follows (43_synth_generators.md R283). -/
theorem envStep_of_underflow (p : Params) {s : Synth} (h : s.holding = false) (hu : s.cntE - 1 ≤ 0) :
    s.envStep p = { s with cntE := s.cntE - 1 + s.perE }.envDescend.envVolumeUpdate p := by
  simp only [envStep, h, Bool.false_eq_true, if_false, if_pos hu]

theorem envDescend_of_pos {s : Synth} (h : 0 < s.step.toNat) : s.envDescend = { s with step := s.step - 1#5 } :=
  if_neg fun h0 => absurd h (by rw [h0]; decide)

/-- The bottom rules (43_synth_generators.md R284, D25). -/
theorem envDescend_of_zero {s : Synth} (h : s.step.toNat = 0) : s.envDescend = { s with
    attack := s.altAttack, holding := s.hold || s.holding, step := if s.hold then 0#5 else 31#5 } := by
  have h0 : s.step = 0#5 := BitVec.eq_of_toNat_eq h
  unfold envDescend envBottom
  rw [if_pos h0]
  cases s.hold <;> rfl

theorem envDescend_frame (s : Synth) : s.envDescend = { s with
    attack := s.envDescend.attack, holding := s.envDescend.holding, step := s.envDescend.step } := by
  by_cases h : s.step.toNat = 0
  · rw [envDescend_of_zero h]
  · rw [envDescend_of_pos (Nat.pos_of_ne_zero h)]

theorem altAttack_toNat (s : Synth) :
    s.altAttack.toNat = if s.alt = true then s.attack.toNat ^^^ 31 else s.attack.toNat := by
  unfold altAttack
  split
  · rw [BitVec.toNat_xor]
    rfl
  · rfl

theorem followEnv_eq (e : Nat) (v : Voice) : followEnv e v = { v with vol := if v.envSel = true then e else v.vol } :=
  followEnv_eq_following e v

/-- The elements the envelope step writes: its counter, step, polarity, hold and volume, and the voices' volumes. -/
theorem envStep_frame (p : Params) (s : Synth) : s.envStep p = { s with
    cntE := (s.envStep p).cntE, step := (s.envStep p).step, attack := (s.envStep p).attack
    holding := (s.envStep p).holding, volE := (s.envStep p).volE
    va := { s.va with vol := (s.envStep p).va.vol }
    vb := { s.vb with vol := (s.envStep p).vb.vol }
    vc := { s.vc with vol := (s.envStep p).vc.vol } } := by
  by_cases hh : s.holding = true
  · rw [envStep_of_holding p hh]
  · rw [Bool.not_eq_true] at hh
    by_cases hu : s.cntE - 1 ≤ 0
    · rw [envStep_of_underflow p hh hu, envVolumeUpdate, mapVoices]
      simp only [followEnv_eq]
      rw [envDescend_frame]
    · rw [envStep_of_running p hh (not_le.1 hu)]

/-- `t` is one envelope step after `s` (43_synth_generators.md R283, R284). -/
def EnvStepped (p : Params) (s t : Synth) : Prop :=
  (t.perE = s.perE ∧ t.hold = s.hold ∧ t.alt = s.alt)
  ∧ ((s.holding = true ∨ 0 < s.cntE - 1) →
      t.cntE = (if s.holding = true then s.cntE else s.cntE - 1)
      ∧ t.step = s.step ∧ t.attack = s.attack ∧ t.holding = s.holding
      ∧ t.volE = s.volE ∧ ∀ k, (t.voice k).vol = (s.voice k).vol)
  ∧ (s.holding = false → s.cntE - 1 ≤ 0 →
      t.cntE = s.cntE - 1 + s.perE
      ∧ (0 < s.step.toNat → t.step.toNat = s.step.toNat - 1 ∧ t.attack = s.attack ∧ t.holding = false)
      ∧ (s.step.toNat = 0 →
          t.attack.toNat = (if s.alt = true then s.attack.toNat ^^^ 31 else s.attack.toNat)
          ∧ t.holding = s.hold ∧ t.step.toNat = if s.hold = true then 0 else 31)
      ∧ t.volE = p.vol (t.step ^^^ t.attack)
      ∧ ∀ k, (t.voice k).vol = if (s.voice k).envSel = true then t.volE else (s.voice k).vol)

theorem voice_envVolumeUpdate_vol (p : Params) (s : Synth) (k : Fin 3) : ((s.envVolumeUpdate p).voice k).vol
    = if (s.voice k).envSel = true then p.vol (s.step ^^^ s.attack) else (s.voice k).vol := by
  rw [envVolumeUpdate, voice_mapVoices, followEnv_eq]
  rfl

theorem envStep_envStepped (p : Params) (s : Synth) : EnvStepped p s (s.envStep p) := by
  refine ⟨?_, fun h => ?_, fun hh hu => ?_⟩
  · rw [envStep_frame]
    exact ⟨rfl, rfl, rfl⟩
  · by_cases hh : s.holding = true
    · rw [envStep_of_holding p hh, if_pos hh]
      exact ⟨rfl, rfl, rfl, rfl, rfl, fun _ => rfl⟩
    · rw [envStep_of_running p (Bool.not_eq_true _ ▸ hh) (h.resolve_left hh), if_neg hh]
      exact ⟨rfl, rfl, rfl, rfl, rfl, fun _ => rfl⟩
  · rw [envStep_of_underflow p hh hu]
    refine ⟨?_, fun hpos => ?_, fun hz => ?_, rfl, fun k => ?_⟩
    · rw [envDescend_frame]
      rfl
    · rw [envDescend_of_pos (s := { s with cntE := s.cntE - 1 + s.perE }) hpos]
      refine ⟨?_, rfl, hh⟩
      change (s.step - 1#5).toNat = _
      have hlt := s.step.isLt
      rw [BitVec.toNat_sub]
      change (2 ^ 5 - 1 + s.step.toNat) % 2 ^ 5 = _
      omega
    · rw [envDescend_of_zero (s := { s with cntE := s.cntE - 1 + s.perE }) hz]
      refine ⟨altAttack_toNat s, ?_, ?_⟩
      · change (s.hold || s.holding) = s.hold
        rw [hh, Bool.or_false]
      · change (if s.hold then 0#5 else 31#5).toNat = _
        split <;> rfl
    · rw [voice_envVolumeUpdate_vol, envDescend_voice]
      rfl

/-- `u` has the envelope of `s` and gives it to the same voices. -/
structure SameEnv (s u : Synth) : Prop where
  perE : u.perE = s.perE
  cntE : u.cntE = s.cntE
  step : u.step = s.step
  hold : u.hold = s.hold
  alt : u.alt = s.alt
  attack : u.attack = s.attack
  holding : u.holding = s.holding
  volE : u.volE = s.volE
  envSel : ∀ k, (u.voice k).envSel = (s.voice k).envSel
  vol : ∀ k, (u.voice k).vol = (s.voice k).vol

/-- An envelope step reads the envelope only, and is one whatever else changes before and after it. -/
theorem EnvStepped.congr {p : Params} {s u v t : Synth} (h : EnvStepped p u v) (hs : SameEnv s u) (ht : SameEnv v t) :
    EnvStepped p s t := by
  simp only [EnvStepped, hs.perE, hs.cntE, hs.step, hs.hold, hs.alt, hs.attack, hs.holding, hs.volE, hs.envSel, hs.vol] at h
  simp only [EnvStepped, ht.perE, ht.cntE, ht.step, ht.hold, ht.alt, ht.attack, ht.holding, ht.volE, ht.vol]
  exact h

/-! ### The tick -/

theorem toneStep_frame (v : Voice) : toneStep v = { v with cnt := (toneStep v).cnt, out := (toneStep v).out } := by
  by_cases h : v.cnt - 1 ≤ 0
  · rw [toneStep_of_underflow h]
  · rw [toneStep_of_running (not_le.1 h)]

/-- The tone and noise steps of a tick (43_synth_generators.md R280). -/
abbrev toneNoise (s : Synth) : Synth := (s.mapVoices fun _ => toneStep).noiseStep

theorem toneNoise_voice (s : Synth) (k : Fin 3) : s.toneNoise.voice k = toneStep (s.voice k) := by
  rw [toneNoise, noiseStep_voice, voice_mapVoices]

theorem toneNoise_sameEnv (s : Synth) : SameEnv s s.toneNoise := by
  have hsel (k : Fin 3) : (s.toneNoise.voice k).envSel = (s.voice k).envSel := by
    rw [toneNoise_voice, toneStep_frame]
  have hvol (k : Fin 3) : (s.toneNoise.voice k).vol = (s.voice k).vol := by
    rw [toneNoise_voice, toneStep_frame]
  refine ⟨?_, ?_, ?_, ?_, ?_, ?_, ?_, ?_, hsel, hvol⟩ <;> rw [toneNoise, noiseStep_frame] <;> rfl

theorem accumulate_sameEnv (s : Synth) : SameEnv s s.accumulate :=
  ⟨rfl, rfl, rfl, rfl, rfl, rfl, rfl, rfl, fun k => by rw [accumulate, voice_mapVoices],
    fun k => by rw [accumulate, voice_mapVoices]⟩

/-- A tick is one envelope step for the envelope (43_synth_generators.md R280). -/
theorem tick_envStepped (p : Params) (s : Synth) : EnvStepped p s (s.tick p) :=
  (envStep_envStepped p s.toneNoise).congr (toneNoise_sameEnv s) (accumulate_sameEnv _)

/-- A tick is one noise step for the noise generator (43_synth_generators.md R280). -/
theorem tick_noise (p : Params) (s : Synth) :
    (s.tick p).cntN = s.noiseStep.cntN ∧ (s.tick p).outN = s.noiseStep.outN ∧ (s.tick p).rng = s.noiseStep.rng := by
  change (s.toneNoise.envStep p).cntN = _ ∧ (s.toneNoise.envStep p).outN = _ ∧ (s.toneNoise.envStep p).rng = _
  rw [envStep_frame]
  by_cases h : s.cntN - 1 ≤ 0
  · rw [noiseStep_of_underflow h, toneNoise, noiseStep_of_underflow (by exact h)]
    exact ⟨rfl, rfl, rfl⟩
  · rw [noiseStep_of_running (not_le.1 h), toneNoise, noiseStep_of_running (by exact not_le.1 h)]
    exact ⟨rfl, rfl, rfl⟩

/-- What no tick writes (43_synth_generators.md R280). -/
theorem tick_frame (p : Params) (s : Synth) : (s.tick p).r = s.r ∧ (s.tick p).perN = s.perN ∧ (s.tick p).perE = s.perE := by
  change (s.toneNoise.envStep p).r = _ ∧ (s.toneNoise.envStep p).perN = _ ∧ (s.toneNoise.envStep p).perE = _
  rw [envStep_frame, toneNoise, noiseStep_frame]
  exact ⟨rfl, rfl, rfl⟩

theorem envStep_voice (p : Params) (s : Synth) (k : Fin 3) :
    (s.envStep p).voice k = { s.voice k with vol := ((s.envStep p).voice k).vol } := by
  have h := congrArg (fun t : Synth => t.voice k) (envStep_frame p s)
  match k with
  | 0 | 1 | 2 => exact h

/-- A voice after a tick: its mix bit is of the outputs after the tick (43_synth_generators.md R285, R286). -/
theorem tick_voice (p : Params) (s : Synth) (k : Fin 3) : (s.tick p).voice k = { toneStep (s.voice k) with
    vol := ((s.tick p).voice k).vol
    high := (s.voice k).high + ((((s.tick p).voice k).out || (s.reg 7#4).getLsbD k.val)
      && ((s.tick p).outN || (s.reg 7#4).getLsbD (3 + k.val))).toNat } := by
  have hreg : (s.toneNoise.envStep p).reg 7#4 = s.reg 7#4 := by
    obtain ⟨hr, -, -⟩ := tick_frame p s
    exact congrArg (fun r : Vector Byte 16 => r[7]) hr
  have hvoice : (s.tick p).voice k = { (s.toneNoise.envStep p).voice k with
      high := ((s.toneNoise.envStep p).voice k).high
        + ((s.toneNoise.envStep p).mixBit k ((s.toneNoise.envStep p).voice k)).toNat } := by
    rw [tick, accumulate, voice_mapVoices]
  have hhigh : ((s.toneNoise.envStep p).voice k).high = (s.voice k).high := by
    rw [envStep_voice, toneNoise_voice, toneStep_frame]
  rw [mixBit, hreg, hhigh] at hvoice
  rw [hvoice, envStep_voice, toneNoise_voice]
  rfl

/-! ### Runs of ticks -/

theorem ticks_eq_iterate (p : Params) (n : Nat) (s : Synth) : s.ticks p n = (tick p)^[n] s := by
  induction n generalizing s with
  | zero => rfl
  | succ n ih => exact ih (s.tick p)

/-- A high-time count grows by at most 1 in a tick (43_synth_generators.md R286). -/
theorem tick_high_le (p : Params) (s : Synth) (k : Fin 3) : ((s.tick p).voice k).high ≤ (s.voice k).high + 1 := by
  rw [tick_voice]
  exact Nat.add_le_add_left (Bool.toNat_le _) _

theorem ticks_high_le (p : Params) (n : Nat) (s : Synth) (k : Fin 3) : ((s.ticks p n).voice k).high ≤ (s.voice k).high + n := by
  induction n generalizing s with
  | zero => exact le_rfl
  | succ n ih =>
    have h1 := ih (s.tick p)
    have h2 := tick_high_le p s k
    rw [ticks]
    omega

/-- The envelope's volume is that of its step and polarity, and the voices it drives have it. -/
structure EnvDrives (p : Params) (s : Synth) : Prop where
  volE : s.volE = p.vol (s.step ^^^ s.attack)
  vol : ∀ k, (s.voice k).envSel = true → (s.voice k).vol = s.volE

theorem tick_envSel (p : Params) (s : Synth) (k : Fin 3) : ((s.tick p).voice k).envSel = (s.voice k).envSel := by
  rw [tick_voice, toneStep_frame]

theorem EnvDrives.tick {p : Params} {s : Synth} (h : EnvDrives p s) : EnvDrives p (s.tick p) := by
  obtain ⟨-, hstill, hunder⟩ := tick_envStepped p s
  by_cases hs : s.holding = true ∨ 0 < s.cntE - 1
  · obtain ⟨-, hstep, hattack, -, hvolE, hvol⟩ := hstill hs
    refine ⟨by rw [hvolE, hstep, hattack, h.volE], fun k hk => ?_⟩
    rw [hvol, hvolE]
    exact h.vol k (tick_envSel p s k ▸ hk)
  · rw [not_or, Bool.not_eq_true] at hs
    obtain ⟨-, -, -, hvolE, hvol⟩ := hunder hs.1 (not_lt.1 hs.2)
    refine ⟨hvolE, fun k hk => ?_⟩
    rw [hvol, if_pos (tick_envSel p s k ▸ hk)]

theorem EnvDrives.iterate {p : Params} {s : Synth} (h : EnvDrives p s) (n : Nat) : EnvDrives p ((Synth.tick p)^[n] s) :=
  Function.Iterate.rec (EnvDrives p) h (fun _ ht => ht.tick) n

/-- `j` steps and `r` ticks into an envelope of period `q` with polarity `a`, not holding. -/
structure EnvRun (q : Nat) (a : BitVec 5) (hold alt : Bool) (j r : Nat) (s : Synth) : Prop where
  perE : s.perE = q
  attack : s.attack = a
  hold : s.hold = hold
  alt : s.alt = alt
  holding : s.holding = false
  step : s.step.toNat = 31 - j
  count : s.cntE = q - r

section

variable {p : Params} {q : Nat} {a : BitVec 5} {hold alt : Bool} {j r : Nat} {s : Synth}

theorem EnvRun.tick (h : EnvRun q a hold alt j r s) (hr : r + 1 < q) : EnvRun q a hold alt j (r + 1) (s.tick p) := by
  obtain ⟨hper, hattack, hhold, halt, hholding, hstep, hcount⟩ := h
  obtain ⟨⟨hper', hhold', halt'⟩, hstill, -⟩ := tick_envStepped p s
  obtain ⟨hcount', hstep', hattack', hholding', -, -⟩ := hstill (.inr (by omega))
  rw [hholding, if_neg (by decide)] at hcount'
  exact ⟨hper'.trans hper, hattack'.trans hattack, hhold'.trans hhold, halt'.trans halt, hholding'.trans hholding,
    by rw [hstep', hstep], by rw [hcount', hcount]; push_cast; ring⟩

theorem EnvRun.ticks (h : EnvRun q a hold alt j 0 s) (hr : r < q) : EnvRun q a hold alt j r ((Synth.tick p)^[r] s) := by
  induction r with
  | zero => exact h
  | succ r ih =>
    rw [Function.iterate_succ_apply']
    exact (ih (by omega)).tick hr

/-- At the end of a period above the bottom the step falls (43_synth_generators.md R283). -/
theorem EnvRun.period (h : EnvRun (q + 1) a hold alt j 0 s) (hj : j < 31) :
    EnvRun (q + 1) a hold alt (j + 1) 0 ((Synth.tick p)^[q + 1] s) := by
  obtain ⟨hper, hattack, hhold, halt, hholding, hstep, hcount⟩ := h.ticks (p := p) q.lt_succ_self
  obtain ⟨⟨hper', hhold', halt'⟩, -, hunder⟩ := tick_envStepped p ((Synth.tick p)^[q] s)
  obtain ⟨hcount', hpos, -⟩ := hunder hholding (by omega)
  obtain ⟨hstep', hattack', hholding'⟩ := hpos (by omega)
  rw [Function.iterate_succ_apply']
  exact ⟨hper'.trans hper, hattack'.trans hattack, hhold'.trans hhold, halt'.trans halt, hholding', by omega, by omega⟩

theorem EnvRun.periods (h : EnvRun (q + 1) a hold alt 0 0 s) (hj : j ≤ 31) :
    EnvRun (q + 1) a hold alt j 0 ((Synth.tick p)^[(q + 1) * j] s) := by
  induction j with
  | zero => exact h
  | succ j ih =>
    rw [Nat.mul_succ, Nat.add_comm ((q + 1) * j), Function.iterate_add_apply]
    exact (ih (by omega)).period (by omega)

/-- At the end of the last period the bottom rules apply (43_synth_generators.md R284, D25). -/
theorem EnvRun.bottom (h : EnvRun (q + 1) a hold alt 31 0 s) :
    ((Synth.tick p)^[q + 1] s).hold = hold ∧ ((Synth.tick p)^[q + 1] s).alt = alt
    ∧ ((Synth.tick p)^[q + 1] s).holding = hold
    ∧ ((Synth.tick p)^[q + 1] s).step.toNat = (if hold = true then 0 else 31)
    ∧ ((Synth.tick p)^[q + 1] s).attack.toNat = if alt = true then a.toNat ^^^ 31 else a.toNat := by
  obtain ⟨hper, hattack, hhold, halt, hholding, hstep, hcount⟩ := h.ticks (p := p) q.lt_succ_self
  obtain ⟨⟨-, hhold', halt'⟩, -, hunder⟩ := tick_envStepped p ((Synth.tick p)^[q] s)
  obtain ⟨-, -, hzero, -⟩ := hunder hholding (by omega)
  obtain ⟨hattack', hholding', hstep'⟩ := hzero (by omega)
  rw [hhold] at hhold' hholding' hstep'
  rw [halt] at halt'
  rw [halt, hattack] at hattack'
  rw [Function.iterate_succ_apply']
  exact ⟨hhold', halt', hholding', hstep', hattack'⟩

end

/-- A shape write starts an envelope run (42_synth_registers.md R257, D20). -/
theorem EnvRun.start (p : Params) (d : Byte) (s : Synth) :
    EnvRun s.perE (if d.toNat / 4 % 2 = 1 then 31#5 else 0#5) (decodeShape d).hold (decodeShape d).alt 0 0 (s.write p 13#4 d) :=
  ⟨rfl, congrArg Shape.attack (decodeShape_eq d), rfl, rfl, rfl, rfl, (Int.sub_zero _).symm⟩

/-- The polarity a shape byte gives, in arithmetic (30_encoding.md R114). -/
theorem shapeAttack_toNat (up : Prop) [Decidable up] : (if up then 31#5 else 0#5).toNat = if up then 31 else 0 := by
  split <;> rfl

/-- The polarity inverted at the bottom, in arithmetic (43_synth_generators.md R284). -/
theorem shapeAttack_xor (up : Prop) [Decidable up] : (if up then 31 else 0) ^^^ 31 = 31 - if up then 31 else 0 := by
  split <;> rfl

theorem EnvDrives.envVolumeUpdate (p : Params) (s : Synth) : EnvDrives p (s.envVolumeUpdate p) := by
  refine ⟨rfl, fun k hk => ?_⟩
  rw [voice_envVolumeUpdate_vol, if_pos ?_]
  · rfl
  · rwa [Synth.envVolumeUpdate, voice_mapVoices, followEnv_eq] at hk

/-- A shape write hands the first volume to every envelope-driven voice (42_synth_registers.md R257). -/
theorem EnvDrives.start (p : Params) (d : Byte) (s : Synth) : EnvDrives p (s.write p 13#4 d) :=
  .envVolumeUpdate p ((s.setReg 13#4 d).shapeStart d)

end Synth

/-- A shape write, then ticks alone. -/
theorem execAll_swrD_times_tick (d : Byte) (k : Nat) (s : State) : execAll (.swrD d :: times k .tick) s
    = .next (s.mapSyn fun y => (Synth.tick s.cfg)^[k] (y.write s.cfg 13#4 d)) := by
  rw [execAll_cons_of_next (i := .swrD d) rfl, execAll_times_tick]
  exact congrArg (fun y => Host.Outcome.next { s with syn := y }) (Synth.ticks_eq_iterate s.cfg k _)

end Sys2Proof.Machine

namespace Sys2Proof

open Sys2Proof.Machine Sys2Proof.Machine.Synth Sys2Proof.Claim

/-- Settles O50: a tick's noise step, by whether the counter underflows. -/
theorem noiseRegisterShiftsOnUnderflow : Obligations.NoiseRegisterShiftsOnUnderflow := by
  intro s
  refine ⟨_, exec_tick s, ?_⟩
  obtain ⟨hcnt, hout, hrng⟩ := tick_noise s.cfg s.syn
  rw [State.mapSyn_syn, hcnt, hout, hrng]
  refine ⟨fun hr => ?_, fun hu => ?_, fun hne => ?_⟩
  · rw [noiseStep_of_running hr]
    exact ⟨rfl, rfl, rfl⟩
  · rw [noiseStep_of_underflow hu]
    exact ⟨rfl, outN_flips_iff .., nextRng_toNat _⟩
  · by_cases h : s.syn.cntN - 1 ≤ 0
    · rw [noiseStep_of_underflow h]
      exact nextRng_ne_zero hne
    · rwa [noiseStep_of_running (not_le.1 h)]

/-- Settles O51: a tick is one envelope step for the envelope. -/
theorem envelopeStepsOnUnderflow : Obligations.EnvelopeStepsOnUnderflow := fun s =>
  ⟨_, exec_tick s, tick_envStepped s.cfg s.syn⟩

/-- Settles O52: what a tick leaves of a voice, and its mix bit. -/
theorem tickAccumulatesTheMixBit : Obligations.TickAccumulatesTheMixBit := by
  intro s
  obtain ⟨hr, hperN, hperE⟩ := tick_frame s.cfg s.syn
  refine ⟨_, exec_tick s, hr, hperN, hperE, fun k => ⟨(tick_sameTone s.cfg s.syn k).per.trans ?_, tick_envSel .., ?_⟩⟩
  · rw [toneStep_frame]
  · have h := congrArg Voice.high (tick_voice s.cfg s.syn k)
    simp only [Bool.toNat, Bool.cond_eq_ite, Bool.and_eq_true, Bool.or_eq_true] at h
    exact h

/-- Settles O53: 31 periods above the bottom, then the last one ends in the bottom rules; the volume follows throughout. -/
theorem envelopeTakesThirtyTwoStepsOfOnePeriod : Obligations.EnvelopeTakesThirtyTwoStepsOfOnePeriod := by
  intro s d k hper hk
  obtain ⟨q, hq⟩ := Nat.exists_eq_add_of_le' hper
  have hrun := EnvRun.start s.cfg d s.syn
  rw [hq] at hrun hk ⊢
  have hdrives := (EnvDrives.start s.cfg d s.syn).iterate k
  refine ⟨_, execAll_swrD_times_tick d k s, fun hlt => ?_, fun hend => ?_, hdrives.volE, hdrives.vol⟩
  · have hr := Nat.mod_lt k q.succ_pos
    have hj : k / (q + 1) < 32 := (Nat.div_lt_iff_lt_mul q.succ_pos).2 hlt
    have h := (hrun.periods (p := s.cfg) (Nat.le_of_lt_succ hj)).ticks (p := s.cfg) hr
    rw [← Function.iterate_add_apply, Nat.mod_add_div] at h
    exact ⟨h.step, (congrArg BitVec.toNat h.attack).trans (shapeAttack_toNat _), h.holding⟩
  · have h := (hrun.periods (p := s.cfg) le_rfl).bottom (p := s.cfg)
    rw [← Function.iterate_add_apply, show q + 1 + (q + 1) * 31 = k by omega, shapeAttack_toNat, shapeAttack_xor] at h
    obtain ⟨hhold, halt, hholding, hstep, hattack⟩ := h
    rw [← hhold] at hholding hstep
    rw [← halt] at hattack
    exact ⟨hholding, hstep, hattack⟩

/-- Settles O54: the sample's ticks are the requests' ticks from the cleared counts, and each adds at most 1. -/
theorem sampleMixesTheHighTimesOfItsTicks : Obligations.SampleMixesTheHighTimesOfItsTicks := by
  intro s
  refine ⟨_, execAll_times_tick _ _, rfl, Nat.succ_pos _, fun k => ?_⟩
  have h := ticks_high_le s.cfg Config.subticksPerSample s.syn.clearHigh k
  rwa [clearHigh, voice_mapVoices, Nat.zero_add] at h

end Sys2Proof
end

section
/-! What does not interfere: ticks with cycles (45_scheduler.md R360, 20_memory.md R91), and the direction registers with
anything else (10_state.md R23); and the state that reset leaves. -/

namespace Sys2Proof.Machine

open Sys2Proof.Claim

/-! ### Ticks and instruction ends -/

theorem cycles_mapSyn (f : Synth → Synth) (n : Nat) (s : State) :
    cycles n (s.mapSyn f) = mapNext (State.mapSyn f) (cycles n s) := by
  induction n generalizing s with
  | zero => rfl
  | succ n ih =>
    rw [cycles, cycles, cycle_mapSyn]
    exact andThen_mapNext ih _

theorem frameAccount_mapSyn (f : Synth → Synth) (n : Byte) (s : State) :
    (s.mapSyn f).frameAccount n = (s.frameAccount n).mapSyn f := by
  rw [frameAccount_eq, frameAccount_eq]
  by_cases h : s.g.frame - (n.toNat : Int) < 0
  · rw [if_pos h, if_pos (by exact h)]
    rfl
  · rw [if_neg h, if_neg (by exact h)]
    rfl

/-- An instruction end commutes with any change of the Synthesizer (45_scheduler.md R362, R363). -/
theorem exec_iend_mapSyn (f : Synth → Synth) (n : Byte) (s : State) :
    exec (.iend n) (s.mapSyn f) = mapNext (State.mapSyn f) (exec (.iend n) s) := by
  change andThen (cycles n.toNat (s.mapSyn f)) (fun t => .next (t.frameAccount n)) = _
  rw [cycles_mapSyn]
  exact andThen_mapNext (g := fun t => .next (t.frameAccount n))
    (fun t => congrArg Host.Outcome.next (frameAccount_mapSyn f n t)) _

/-- A request that commutes with any change of the Synthesizer commutes with a tick. -/
theorem execAll_tick_comm {i : Instr} {s : State}
    (h : ∀ f : Synth → Synth, exec i (s.mapSyn f) = mapNext (State.mapSyn f) (exec i s)) :
    execAll [.tick, i] s = execAll [i, .tick] s := by
  rw [execAll_cons_of_next (exec_tick s), execAll, h, execAll]
  cases hi : exec i s with
  | next t =>
    rw [mapNext, andThen_next, andThen_next, execAll_cons_of_next (exec_tick t), exec_cfg hi]
  | fault e => rfl
  | refused e => rfl

/-! ### The direction registers -/

/-- The Controller with other direction registers. -/
def Controller.directed (a b : Byte) (c : Controller) : Controller := { c with ddra := a, ddrb := b }

section

variable (a b : Byte)

theorem timer1Step_directed (c : Controller) : (c.directed a b).timer1Step = c.timer1Step.directed a b := by
  simp only [Controller.timer1Step, apply_ite (Controller.directed a b)]
  rfl

theorem timer2Step_directed (c : Controller) : (c.directed a b).timer2Step = c.timer2Step.directed a b := by
  simp only [Controller.timer2Step, apply_ite (Controller.directed a b)]
  rfl

theorem dividerStep_directed (c : Controller) :
    (c.directed a b).dividerStep = (c.dividerStep.1.directed a b, c.dividerStep.2) := by
  unfold Controller.dividerStep
  by_cases h : c.srdiv - 1#8 = 0xFF#8
  · rw [if_pos h, if_pos (by exact h)]
    rfl
  · rw [if_neg h, if_neg (by exact h)]
    rfl

theorem shiftByMode_directed (p : Bool) (c : Controller) : (c.directed a b).shiftByMode p = (c.shiftByMode p).directed a b := by
  have hacr : (c.directed a b).acr = c.acr := rfl
  unfold Controller.shiftByMode
  rw [hacr]
  cases shiftMode c.acr <;> cases p <;> rfl

theorem shiftStep_directed (p : Bool) (c : Controller) : (c.directed a b).shiftStep p = (c.shiftStep p).directed a b := by
  simp only [Controller.shiftStep, shiftByMode_directed, apply_ite (Controller.directed a b)]
  rfl

theorem phaseA_directed (c : Controller) : (c.directed a b).phaseA = c.phaseA.directed a b := by
  simp only [Controller.phaseA, timer1Step_directed, timer2Step_directed, dividerStep_directed, shiftStep_directed]

theorem line1Access_directed (p : Params) (c : Controller) : (c.directed a b).line1Access p = (c.line1Access p).directed a b := by
  simp only [Controller.line1Access, apply_ite (Controller.directed a b)]
  rfl

theorem writeT1LatchHigh_directed (p : Params) (d : Byte) (c : Controller) :
    (c.directed a b).writeT1LatchHigh p d = (c.writeT1LatchHigh p d).directed a b := by
  unfold Controller.writeT1LatchHigh
  split <;> rfl

theorem protocol_withDirections (s : State) : protocol (withDirections a b s) = withDirections a b (protocol s) := by
  unfold protocol withDirections
  split_ifs <;> rfl

/-- The Beam Engine does not read the direction registers. -/
theorem beamAdvance_withDirections (s : State) : (withDirections a b s).beamAdvance = withDirections a b s.beamAdvance := by
  have hadv : (withDirections a b s).b.advance (withDirections a b s).cfg (withDirections a b s).c
      = s.b.advance s.cfg s.c := rfl
  simp only [State.beamAdvance, hadv]
  cases (s.b.advance s.cfg s.c).2 with
  | none => rfl
  | some _ => rfl

theorem beamStep_withDirections (s : State) :
    beamStep (withDirections a b s) = mapNext (withDirections a b) (beamStep s) := by
  simp only [beamStep, beamAdvance_withDirections]
  change (if s.beamAdvance.b.beyondLimit s.cfg = true then _ else _) = _
  split <;> rfl

theorem cycle_withDirections (s : State) : cycle (withDirections a b s) = mapNext (withDirections a b) (cycle s) := by
  have hA : (withDirections a b s).mapC Controller.phaseA = withDirections a b (s.mapC Controller.phaseA) :=
    congrArg (fun c => { s with c := c }) (phaseA_directed a b s.c)
  rw [cycle, hA, beamStep_withDirections]
  exact andThen_mapNext (fun _ => rfl) _

theorem cycles_withDirections (n : Nat) (s : State) :
    cycles n (withDirections a b s) = mapNext (withDirections a b) (cycles n s) := by
  induction n generalizing s with
  | zero => rfl
  | succ n ih =>
    rw [cycles, cycles, cycle_withDirections]
    exact andThen_mapNext ih _

theorem frameAccount_withDirections (n : Byte) (s : State) :
    (withDirections a b s).frameAccount n = withDirections a b (s.frameAccount n) := by
  rw [frameAccount_eq, frameAccount_eq]
  by_cases h : s.g.frame - (n.toNat : Int) < 0
  · rw [if_pos h, if_pos (by exact h)]
    rfl
  · rw [if_neg h, if_neg (by exact h)]
    rfl

end

end Sys2Proof.Machine

namespace Sys2Proof

open Sys2Proof.Machine Sys2Proof.Claim

/-- Settles O55: a cycle and an instruction end commute with any change of the Synthesizer, so with a tick. -/
theorem ticksAndCyclesCommute : Obligations.TicksAndCyclesCommute := fun s n =>
  ⟨execAll_tick_comm fun f => cycle_mapSyn f s, execAll_tick_comm fun f => exec_iend_mapSyn f n s⟩

/-- Settles O56: only the four excluded accesses read or write a direction register, and reset. -/
theorem directionRegistersAffectNothingElse : Obligations.DirectionRegistersAffectNothingElse := by
  intro i s a b h2 h3 hw2 hw3 hr
  cases i with
  | crd2 => exact absurd rfl h2
  | crd3 => exact absurd rfl h3
  | cwr2 d => exact absurd rfl (hw2 d)
  | cwr3 d => exact absurd rfl (hw3 d)
  | reset => exact absurd rfl hr
  | cwr0 d =>
    rw [exec_cwr0, exec_cwr0]
    exact congrArg (fun u : State => Host.Outcome.next { u with
      c := { s.c with ddra := a, ddrb := b, orb := d, cb2h := if drivesLow s.cfg (line2 s.c) then false else s.c.cb2h }
      b := sampled d s.b }) (protocol_withDirections a b { s with c := { s.c with orb := d } })
  | cwr1 d =>
    rw [exec_cwr1, exec_cwr1]
    exact congrArg (fun u : State => Host.Outcome.next { u with
      c := { s.c with ddra := a, ddrb := b, ora := d, ca2 := if drivesLow s.cfg (line1 s.c) then false else s.c.ca2 }
      b := sampled s.c.orb { s.b with xsh := BitVec.ofNat 8 ((d.toNat + 128) % 256) } })
      (protocol_withDirections a b { s with c := { s.c with ora := d } })
  | cwrF d =>
    rw [exec_cwrF, exec_cwrF]
    exact congrArg (fun u : State => Host.Outcome.next { u with
      b := sampled s.c.orb { s.b with xsh := BitVec.ofNat 8 ((d.toNat + 128) % 256) } })
      (protocol_withDirections a b { s with c := { s.c with ora := d } })
  | crd1 =>
    exact congrArg (fun c => Host.Outcome.next (State.give (.byte s.portA) { s with c := c }))
      (line1Access_directed a b s.cfg s.c)
  | cwr7 d =>
    exact congrArg (fun c => Host.Outcome.next { s with c := c }) (writeT1LatchHigh_directed a b s.cfg d s.c)
  | pha => exact congrArg (fun c => Host.Outcome.next { s with c := c }) (phaseA_directed a b s.c)
  | beam => exact beamStep_withDirections a b s
  | cyc => exact cycle_withDirections a b s
  | iend n =>
    change andThen (cycles n.toNat (withDirections a b s)) (fun t => .next (t.frameAccount n)) = _
    rw [cycles_withDirections]
    exact andThen_mapNext (g := fun t => .next (t.frameAccount n))
      (fun t => congrArg Host.Outcome.next (frameAccount_withDirections a b n t)) _
  | _ => rfl

/-- Settles O57: the reset procedure's result, and that the table of the configuration at reset is silent at entry 0. -/
theorem resetGivesTheSpecsValues : Obligations.ResetGivesTheSpecsValues := by
  intro s voice
  constructor
  · exact congrArg (fun y => Host.Outcome.next { s with
      c := Controller.atReset, syn := y, b := Beam.atReset s.cfg, g := Glue.atReset s.cfg }) (resetProcedure_voices s.cfg)
  · intro t hcfg h
    obtain rfl := Host.Outcome.next.inj h
    change _ = State.mk s.cfg Controller.atReset (Synth.resetProcedure s.cfg) (Beam.atReset s.cfg) (Glue.atReset s.cfg) [] []
    rw [hcfg, resetProcedure_eq rfl]
    rfl

end Sys2Proof
end
